-- ==== Sys2Proof/Word.lean ====
section
/-! DEFINITION. The words of the engine: bytes and byte strings (00_scope.md R17), 32-bit host words, 64-bit
lanes, and the two mathematical types of the functional layer: field elements modulo p (44_field.md R170) and
points (45_point.md R200). -/

namespace Sys2Proof

/-- One byte of a byte string (00_scope.md R17). -/
abbrev Byte := BitVec 8

/-- A byte string: a finite sequence of bytes, `X[0]` first (00_scope.md R17). -/
abbrev Bytes := List Byte

/-- A 32-bit word of the host register map, and a command word (20_memory.md R55, 30_encoding.md R80). -/
abbrev Word := BitVec 32

/-- A 64-bit lane of the Keccak state (10_state.md R24). -/
abbrev Lane := BitVec 64

/-- The Keccak state: 25 lanes, lane `x + 5y` at column x and row y (41_keccak.md R120). -/
abbrev Lanes := Vector Lane 25

/-- The field prime p = 2^448 - 2^224 - 1 (00_scope.md R10, its 56 bytes in hexadecimal). -/
def fieldPrime : Nat :=
  0xFFFFFFFFFFFFFFFFFFFFFFFFFFFFFFFFFFFFFFFFFFFFFFFFFFFFFFFEFFFFFFFFFFFFFFFFFFFFFFFFFFFFFFFFFFFFFFFFFFFFFFFFFFFFFFFF

theorem fieldPrime_pos : 0 < fieldPrime := by decide

/-- A field element: the canonical representative, an integer in [0, p) (44_field.md R170, R171). The bound is
part of the type, so no F register and no coordinate can hold a value outside [0, p) (10_state.md R25). -/
abbrev Fe := Fin fieldPrime

/-- The field element of an integer: its residue modulo p, in [0, p) (44_field.md R171). -/
def Fe.ofNat (v : Nat) : Fe := ⟨v % fieldPrime, Nat.mod_lt v fieldPrime_pos⟩

/-- A point: a pair of field elements, in affine form (45_point.md R200). That the pair satisfies the curve
equation is an invariant of the point registers (10_state.md R26), not part of the type. -/
structure Point where
  x : Fe
  y : Fe
deriving DecidableEq, Repr

end Sys2Proof
end

