-- ==== Sys2Proof/Config.lean ====
section
/-! DEFINITION. What is fixed for a machine: the named constants of 00_scope.md R8, R10 and R14, and the three
parameters the spec leaves to the model, BMAX, r and G (00_scope.md R11 to R13). -/

namespace Sys2Proof.Config

/-- LANES: lanes of the Keccak state (00_scope.md R8). -/
def lanes : Nat := 25
/-- LANEW: bits of a lane (00_scope.md R8). -/
def laneWidth : Nat := 64
/-- NR: rounds of the permutation (00_scope.md R8, R9). -/
def rounds : Nat := 24
/-- CAP: capacity in bits (00_scope.md R8, R9). -/
def capacity : Nat := 512
/-- RATE: rate in bytes (00_scope.md R8). -/
def rate : Nat := 136
/-- Lanes of the rate portion, 0 to 16 (20_memory.md R53). -/
def rateLanes : Nat := 17
/-- STATE_BYTES (00_scope.md R8). -/
def stateBytes : Nat := 200

/-- FE_BYTES: one encoded field element (00_scope.md R14). -/
def feBytes : Nat := 56
/-- PT_BYTES: one encoded point (00_scope.md R14). -/
def ptBytes : Nat := 112
/-- TAG_BYTES: the authentication tag (00_scope.md R14). -/
def tagBytes : Nat := 64
/-- KE_BYTES = KA_BYTES: each half of the 1024-bit derivation (00_scope.md R14). -/
def halfBytes : Nat := 64
/-- H_BYTES: the challenge of a signature (00_scope.md R14). -/
def hBytes : Nat := 64
/-- Z_BYTES: the response of a signature (00_scope.md R14). -/
def zBytes : Nat := 56
/-- SIG_BYTES: a signature (00_scope.md R14). -/
def sigBytes : Nat := 120
/-- S_BYTES: the private scalar as bytes (00_scope.md R14). -/
def sBytes : Nat := 56
/-- NONCE_BYTES: the nonce of the symmetric variant (00_scope.md R14). -/
def nonceBytes : Nat := 64
/-- RND_BYTES: the random input of ENCPK (00_scope.md R14). -/
def rndBytes : Nat := 64
/-- K_BYTES: one scalar register (00_scope.md R14). -/
def kBytes : Nat := 64
/-- The cofactor (00_scope.md R10). -/
def cofactor : Nat := 4

/-- The curve constant d = -39081, as the field element p - 39081 (00_scope.md R10, 44_field.md R171). -/
def curveD : Fe := Fe.ofNat (fieldPrime - 39081)

/-- The neutral element O = (0, 1) (00_scope.md R10). -/
def neutral : Point := ⟨Fe.ofNat 0, Fe.ofNat 1⟩

/-- The parameters of the step function (10_state.md R20): the buffer capacity BMAX in bytes, the group order r
and the base point G (00_scope.md R11 to R13). Log 1. -/
structure Params where
  bmax : Nat
  r : Nat
  g : Point
deriving DecidableEq, Repr

/-- The default of r. PRESUMED: 00_scope.md R11 takes the value from general knowledge (93_implementation_defined.md
G5); Log 1. -/
def defaultR : Nat :=
  0x3FFFFFFFFFFFFFFFFFFFFFFFFFFFFFFFFFFFFFFFFFFFFFFFFFFFFFFF7CCA23E9C44EDB49AED63690216CC2728DC58F552378C292AB5844F3

/-- The default of G, (8, y0) with y0 the even root. PRESUMED: 00_scope.md R12 takes the value from general
knowledge (93_implementation_defined.md G6); Log 1. -/
def defaultG : Point :=
  ⟨Fe.ofNat 8, Fe.ofNat
    0xC66F6F0565E6D0B5F2BB263CEBB9F8540EB046F40ED0FFF7F84D84653B428D989AABFF93B6BF700801228094E3DD0C2D1C600E3B0BCCFC32⟩

/-- The defaults the spec gives: BMAX = 4096, r and G as above (00_scope.md R11 to R13). Log 1. -/
def defaultParams : Params := ⟨4096, defaultR, defaultG⟩

end Sys2Proof.Config
end

