-- ==== Sys2Proof/Syntax.lean ====
section
/-! DEFINITION. The 35 commands of 30_encoding.md R83, one constructor per row of the opcode table, operands in
the order of the row's assembler syntax (R87): destinations first, then the sources. An operand is an index into
the register file the row names: 8 entries for B, N and F, 4 for P and K (R82); `imm` is the 4-bit IMM field (R86). -/

namespace Sys2Proof

/-- An index of file B, N or F (30_encoding.md R82). -/
abbrev Idx8 := Fin 8

/-- An index of file P or K (30_encoding.md R82). -/
abbrev Idx4 := Fin 4

/-- The commands (30_encoding.md R83). -/
inductive Instr where
  /-- `ALD Ba` -/
  | ald (a : Idx8)
  /-- `AST Bd` -/
  | ast (d : Idx8)
  /-- `FLD Fd, Ba` -/
  | fld (d : Idx8) (a : Idx8)
  /-- `FST Bd, Fa` -/
  | fst (d : Idx8) (a : Idx8)
  /-- `KLD Kd, Ba` -/
  | kld (d : Idx4) (a : Idx8)
  /-- `KST Bd, Ka` -/
  | kst (d : Idx8) (a : Idx4)
  /-- `LENC Bd, Ba` -/
  | lenc (d : Idx8) (a : Idx8)
  /-- `RENC Bd, Ba` -/
  | renc (d : Idx8) (a : Idx8)
  /-- `ENCSTR Bd, Ba` -/
  | encstr (d : Idx8) (a : Idx8)
  /-- `BYTEPAD Bd, Ba, Nb` -/
  | bytepad (d : Idx8) (a : Idx8) (b : Idx8)
  /-- `SUBSTR Bd, Ba, Nb, Nc` -/
  | substr (d : Idx8) (a : Idx8) (b : Idx8) (c : Idx8)
  /-- `KP` -/
  | kp
  /-- `SPONGE Bd, Ba, Nb, Nc` -/
  | sponge (d : Idx8) (a : Idx8) (b : Idx8) (c : Idx8)
  /-- `SHAKE Bd, Ba, Nb` -/
  | shake (d : Idx8) (a : Idx8) (b : Idx8)
  /-- `CSHAKE Bd, Ba, Nb, Bc, Be` -/
  | cshake (d : Idx8) (a : Idx8) (b : Idx8) (c : Idx8) (e : Idx8)
  /-- `KMAC Bd, Ba, Bb, Nc, Be` -/
  | kmac (d : Idx8) (a : Idx8) (b : Idx8) (c : Idx8) (e : Idx8)
  /-- `FADD Fd, Fa, Fb` -/
  | fadd (d : Idx8) (a : Idx8) (b : Idx8)
  /-- `FSUB Fd, Fa, Fb` -/
  | fsub (d : Idx8) (a : Idx8) (b : Idx8)
  /-- `FMUL Fd, Fa, Fb` -/
  | fmul (d : Idx8) (a : Idx8) (b : Idx8)
  /-- `FINV Fd, Fa` -/
  | finv (d : Idx8) (a : Idx8)
  /-- `FSQRT Fd, Fa, #lsb` -/
  | fsqrt (d : Idx8) (a : Idx8) (imm : BitVec 4)
  /-- `PTNEW Pd, Fa, Fb` -/
  | ptnew (d : Idx4) (a : Idx8) (b : Idx8)
  /-- `PTFROMX Pd, Fa, #lsb` -/
  | ptfromx (d : Idx4) (a : Idx8) (imm : BitVec 4)
  /-- `PTADD Pd, Pa, Pb` -/
  | ptadd (d : Idx4) (a : Idx4) (b : Idx4)
  /-- `PTMUL Pd, Pa, Kb` -/
  | ptmul (d : Idx4) (a : Idx4) (b : Idx4)
  /-- `PTENC Bd, Pa` -/
  | ptenc (d : Idx8) (a : Idx4)
  /-- `PTDEC Pd, Ba` -/
  | ptdec (d : Idx4) (a : Idx8)
  /-- `PTG Pd` -/
  | ptg (d : Idx4)
  /-- `KEYPAIR Kd, Pe, Ba` -/
  | keypair (d : Idx4) (e : Idx4) (a : Idx8)
  /-- `ENCPK Bd, Ba, Pb, Bc` -/
  | encpk (d : Idx8) (a : Idx8) (b : Idx4) (c : Idx8)
  /-- `DECPK Bd, Ba, Bb` -/
  | decpk (d : Idx8) (a : Idx8) (b : Idx8)
  /-- `ENCSYM Bd, Ba, Bb, Bc` -/
  | encsym (d : Idx8) (a : Idx8) (b : Idx8) (c : Idx8)
  /-- `DECSYM Bd, Ba, Bb` -/
  | decsym (d : Idx8) (a : Idx8) (b : Idx8)
  /-- `SIGN Bd, Ba, Bb` -/
  | sign (d : Idx8) (a : Idx8) (b : Idx8)
  /-- `VERIFY Nd, Ba, Bb, Pc` -/
  | verify (d : Idx8) (a : Idx8) (b : Idx8) (c : Idx4)
deriving DecidableEq, Repr

end Sys2Proof
end

