-- ==== Sys2Proof/WellFormed.lean ====
section
/-! DEFINITION. What an instruction must satisfy beyond its type. The register indices carry their bounds
(30_encoding.md R82) in their types; what is left to check is the IMM field of FSQRT and PTFROMX, whose bits 3:1
must be zero (R86). -/

namespace Sys2Proof

/-- IMM[3:1] = 0: the immediate is 0 or 1 (30_encoding.md R86, R84 (d)). -/
def immOk (imm : BitVec 4) : Bool := decide (imm.toNat ≤ 1)

/-- The instruction is one that some legal command word stands for (30_encoding.md R82, R84, R86). -/
def Instr.wellFormed : Instr → Bool
  | .ald _ => true
  | .ast _ => true
  | .fld _ _ => true
  | .fst _ _ => true
  | .kld _ _ => true
  | .kst _ _ => true
  | .lenc _ _ => true
  | .renc _ _ => true
  | .encstr _ _ => true
  | .bytepad _ _ _ => true
  | .substr _ _ _ _ => true
  | .kp => true
  | .sponge _ _ _ _ => true
  | .shake _ _ _ => true
  | .cshake _ _ _ _ _ => true
  | .kmac _ _ _ _ _ => true
  | .fadd _ _ _ => true
  | .fsub _ _ _ => true
  | .fmul _ _ _ => true
  | .finv _ _ => true
  | .fsqrt _ _ imm => immOk imm
  | .ptnew _ _ _ => true
  | .ptfromx _ _ imm => immOk imm
  | .ptadd _ _ _ => true
  | .ptmul _ _ _ => true
  | .ptenc _ _ => true
  | .ptdec _ _ => true
  | .ptg _ => true
  | .keypair _ _ _ => true
  | .encpk _ _ _ _ => true
  | .decpk _ _ _ => true
  | .encsym _ _ _ _ => true
  | .decsym _ _ _ => true
  | .sign _ _ _ => true
  | .verify _ _ _ _ => true

end Sys2Proof
end

