-- ==== Sys2Proof/Decode.lean ====
section
/-! DEFINITION. Command words (30_encoding.md): the fields of format R (R81), the decoder (R83, R84, R89 step 2),
the encoder (R87), and the opcode table's match and mask columns (R83). -/

namespace Sys2Proof

/-! ### The fields of format R (30_encoding.md R81), used as unsigned numbers (R82) -/

/-- OPC, bits 31:24. -/
def opcOf (w : Word) : Nat := (w.extractLsb' 24 8).toNat
/-- RD, bits 23:20. -/
def rdOf (w : Word) : Nat := (w.extractLsb' 20 4).toNat
/-- RA, bits 19:16. -/
def raOf (w : Word) : Nat := (w.extractLsb' 16 4).toNat
/-- RB, bits 15:12. -/
def rbOf (w : Word) : Nat := (w.extractLsb' 12 4).toNat
/-- RC, bits 11:8. -/
def rcOf (w : Word) : Nat := (w.extractLsb' 8 4).toNat
/-- RE, bits 7:4. -/
def reOf (w : Word) : Nat := (w.extractLsb' 4 4).toNat
/-- IMM, bits 3:0. -/
def immOf (w : Word) : Nat := (w.extractLsb' 0 4).toNat

/-- Why a word is illegal: the clauses (a) to (d) of 30_encoding.md R84. The engine reports only that it is
illegal, so which clause is named when several hold has no effect on the machine (Log 12). -/
inductive Illegal where
  /-- (a) OPC is not one of the 35 listed opcodes. -/
  | unlistedOpcode
  /-- (b) a register field the command does not use is not zero. -/
  | unusedField
  /-- (c) an index field exceeds the size of its file. -/
  | indexRange
  /-- (d) IMM is above 1 for FSQRT or PTFROMX. -/
  | immediateRange
deriving DecidableEq, Repr

/-- The fields a command does not use must be zero (30_encoding.md R84 (b), and (d) for an unused IMM). -/
def unused (fields : List Nat) : Except Illegal Unit :=
  if fields.all (· == 0) then .ok () else .error .unusedField

/-- An index of file B, N or F is in 0..7 (30_encoding.md R82). -/
def index8 (v : Nat) : Except Illegal Idx8 :=
  if h : v < 8 then .ok ⟨v, h⟩ else .error .indexRange

/-- An index of file P or K is in 0..3 (30_encoding.md R82). -/
def index4 (v : Nat) : Except Illegal Idx4 :=
  if h : v < 4 then .ok ⟨v, h⟩ else .error .indexRange

/-- The lsb immediate of FSQRT and PTFROMX is 0 or 1 (30_encoding.md R86). -/
def immediate (v : Nat) : Except Illegal (BitVec 4) :=
  if v ≤ 1 then .ok (BitVec.ofNat 4 v) else .error .immediateRange

/-- The decoder: total on every word, the command or the reason the word is illegal (30_encoding.md R83, R84). The
check is on the word alone. -/
def decode (w : Word) : Except Illegal Instr :=
  match opcOf w with
  | 0x01 => do
    unused [rdOf w, rbOf w, rcOf w, reOf w, immOf w]
    let a ← index8 (raOf w)
    return .ald a
  | 0x02 => do
    unused [raOf w, rbOf w, rcOf w, reOf w, immOf w]
    let d ← index8 (rdOf w)
    return .ast d
  | 0x03 => do
    unused [rbOf w, rcOf w, reOf w, immOf w]
    let d ← index8 (rdOf w)
    let a ← index8 (raOf w)
    return .fld d a
  | 0x04 => do
    unused [rbOf w, rcOf w, reOf w, immOf w]
    let d ← index8 (rdOf w)
    let a ← index8 (raOf w)
    return .fst d a
  | 0x05 => do
    unused [rbOf w, rcOf w, reOf w, immOf w]
    let d ← index4 (rdOf w)
    let a ← index8 (raOf w)
    return .kld d a
  | 0x06 => do
    unused [rbOf w, rcOf w, reOf w, immOf w]
    let d ← index8 (rdOf w)
    let a ← index4 (raOf w)
    return .kst d a
  | 0x10 => do
    unused [rbOf w, rcOf w, reOf w, immOf w]
    let d ← index8 (rdOf w)
    let a ← index8 (raOf w)
    return .lenc d a
  | 0x11 => do
    unused [rbOf w, rcOf w, reOf w, immOf w]
    let d ← index8 (rdOf w)
    let a ← index8 (raOf w)
    return .renc d a
  | 0x12 => do
    unused [rbOf w, rcOf w, reOf w, immOf w]
    let d ← index8 (rdOf w)
    let a ← index8 (raOf w)
    return .encstr d a
  | 0x13 => do
    unused [rcOf w, reOf w, immOf w]
    let d ← index8 (rdOf w)
    let a ← index8 (raOf w)
    let b ← index8 (rbOf w)
    return .bytepad d a b
  | 0x14 => do
    unused [reOf w, immOf w]
    let d ← index8 (rdOf w)
    let a ← index8 (raOf w)
    let b ← index8 (rbOf w)
    let c ← index8 (rcOf w)
    return .substr d a b c
  | 0x20 => do
    unused [rdOf w, raOf w, rbOf w, rcOf w, reOf w, immOf w]
    return .kp
  | 0x28 => do
    unused [reOf w, immOf w]
    let d ← index8 (rdOf w)
    let a ← index8 (raOf w)
    let b ← index8 (rbOf w)
    let c ← index8 (rcOf w)
    return .sponge d a b c
  | 0x29 => do
    unused [rcOf w, reOf w, immOf w]
    let d ← index8 (rdOf w)
    let a ← index8 (raOf w)
    let b ← index8 (rbOf w)
    return .shake d a b
  | 0x2A => do
    unused [immOf w]
    let d ← index8 (rdOf w)
    let a ← index8 (raOf w)
    let b ← index8 (rbOf w)
    let c ← index8 (rcOf w)
    let e ← index8 (reOf w)
    return .cshake d a b c e
  | 0x30 => do
    unused [immOf w]
    let d ← index8 (rdOf w)
    let a ← index8 (raOf w)
    let b ← index8 (rbOf w)
    let c ← index8 (rcOf w)
    let e ← index8 (reOf w)
    return .kmac d a b c e
  | 0x40 => do
    unused [rcOf w, reOf w, immOf w]
    let d ← index8 (rdOf w)
    let a ← index8 (raOf w)
    let b ← index8 (rbOf w)
    return .fadd d a b
  | 0x41 => do
    unused [rcOf w, reOf w, immOf w]
    let d ← index8 (rdOf w)
    let a ← index8 (raOf w)
    let b ← index8 (rbOf w)
    return .fsub d a b
  | 0x42 => do
    unused [rcOf w, reOf w, immOf w]
    let d ← index8 (rdOf w)
    let a ← index8 (raOf w)
    let b ← index8 (rbOf w)
    return .fmul d a b
  | 0x43 => do
    unused [rbOf w, rcOf w, reOf w, immOf w]
    let d ← index8 (rdOf w)
    let a ← index8 (raOf w)
    return .finv d a
  | 0x44 => do
    unused [rbOf w, rcOf w, reOf w]
    let d ← index8 (rdOf w)
    let a ← index8 (raOf w)
    let imm ← immediate (immOf w)
    return .fsqrt d a imm
  | 0x50 => do
    unused [rcOf w, reOf w, immOf w]
    let d ← index4 (rdOf w)
    let a ← index8 (raOf w)
    let b ← index8 (rbOf w)
    return .ptnew d a b
  | 0x51 => do
    unused [rbOf w, rcOf w, reOf w]
    let d ← index4 (rdOf w)
    let a ← index8 (raOf w)
    let imm ← immediate (immOf w)
    return .ptfromx d a imm
  | 0x52 => do
    unused [rcOf w, reOf w, immOf w]
    let d ← index4 (rdOf w)
    let a ← index4 (raOf w)
    let b ← index4 (rbOf w)
    return .ptadd d a b
  | 0x53 => do
    unused [rcOf w, reOf w, immOf w]
    let d ← index4 (rdOf w)
    let a ← index4 (raOf w)
    let b ← index4 (rbOf w)
    return .ptmul d a b
  | 0x54 => do
    unused [rbOf w, rcOf w, reOf w, immOf w]
    let d ← index8 (rdOf w)
    let a ← index4 (raOf w)
    return .ptenc d a
  | 0x55 => do
    unused [rbOf w, rcOf w, reOf w, immOf w]
    let d ← index4 (rdOf w)
    let a ← index8 (raOf w)
    return .ptdec d a
  | 0x56 => do
    unused [raOf w, rbOf w, rcOf w, reOf w, immOf w]
    let d ← index4 (rdOf w)
    return .ptg d
  | 0x60 => do
    unused [rbOf w, rcOf w, immOf w]
    let d ← index4 (rdOf w)
    let a ← index8 (raOf w)
    let e ← index4 (reOf w)
    return .keypair d e a
  | 0x61 => do
    unused [reOf w, immOf w]
    let d ← index8 (rdOf w)
    let a ← index8 (raOf w)
    let b ← index4 (rbOf w)
    let c ← index8 (rcOf w)
    return .encpk d a b c
  | 0x62 => do
    unused [rcOf w, reOf w, immOf w]
    let d ← index8 (rdOf w)
    let a ← index8 (raOf w)
    let b ← index8 (rbOf w)
    return .decpk d a b
  | 0x63 => do
    unused [reOf w, immOf w]
    let d ← index8 (rdOf w)
    let a ← index8 (raOf w)
    let b ← index8 (rbOf w)
    let c ← index8 (rcOf w)
    return .encsym d a b c
  | 0x64 => do
    unused [rcOf w, reOf w, immOf w]
    let d ← index8 (rdOf w)
    let a ← index8 (raOf w)
    let b ← index8 (rbOf w)
    return .decsym d a b
  | 0x65 => do
    unused [rcOf w, reOf w, immOf w]
    let d ← index8 (rdOf w)
    let a ← index8 (raOf w)
    let b ← index8 (rbOf w)
    return .sign d a b
  | 0x66 => do
    unused [reOf w, immOf w]
    let d ← index8 (rdOf w)
    let a ← index8 (raOf w)
    let b ← index8 (rbOf w)
    let c ← index4 (rcOf w)
    return .verify d a b c
  | _ => .error .unlistedOpcode

/-- The word of the seven fields: `OPC·2^24 + RD·2^20 + RA·2^16 + RB·2^12 + RC·2^8 + RE·2^4 + IMM`
(30_encoding.md R87). -/
def assemble (opc rd ra rb rc re imm : Nat) : Word :=
  BitVec.ofNat 32 (opc * 2^24 + rd * 2^20 + ra * 2^16 + rb * 2^12 + rc * 2^8 + re * 2^4 + imm)

/-- The encoder: each command's word, unused fields 0 (30_encoding.md R83, R87). -/
def encode : Instr → Word
  | .ald a => assemble 0x01 0 a.val 0 0 0 0
  | .ast d => assemble 0x02 d.val 0 0 0 0 0
  | .fld d a => assemble 0x03 d.val a.val 0 0 0 0
  | .fst d a => assemble 0x04 d.val a.val 0 0 0 0
  | .kld d a => assemble 0x05 d.val a.val 0 0 0 0
  | .kst d a => assemble 0x06 d.val a.val 0 0 0 0
  | .lenc d a => assemble 0x10 d.val a.val 0 0 0 0
  | .renc d a => assemble 0x11 d.val a.val 0 0 0 0
  | .encstr d a => assemble 0x12 d.val a.val 0 0 0 0
  | .bytepad d a b => assemble 0x13 d.val a.val b.val 0 0 0
  | .substr d a b c => assemble 0x14 d.val a.val b.val c.val 0 0
  | .kp => assemble 0x20 0 0 0 0 0 0
  | .sponge d a b c => assemble 0x28 d.val a.val b.val c.val 0 0
  | .shake d a b => assemble 0x29 d.val a.val b.val 0 0 0
  | .cshake d a b c e => assemble 0x2A d.val a.val b.val c.val e.val 0
  | .kmac d a b c e => assemble 0x30 d.val a.val b.val c.val e.val 0
  | .fadd d a b => assemble 0x40 d.val a.val b.val 0 0 0
  | .fsub d a b => assemble 0x41 d.val a.val b.val 0 0 0
  | .fmul d a b => assemble 0x42 d.val a.val b.val 0 0 0
  | .finv d a => assemble 0x43 d.val a.val 0 0 0 0
  | .fsqrt d a imm => assemble 0x44 d.val a.val 0 0 0 imm.toNat
  | .ptnew d a b => assemble 0x50 d.val a.val b.val 0 0 0
  | .ptfromx d a imm => assemble 0x51 d.val a.val 0 0 0 imm.toNat
  | .ptadd d a b => assemble 0x52 d.val a.val b.val 0 0 0
  | .ptmul d a b => assemble 0x53 d.val a.val b.val 0 0 0
  | .ptenc d a => assemble 0x54 d.val a.val 0 0 0 0
  | .ptdec d a => assemble 0x55 d.val a.val 0 0 0 0
  | .ptg d => assemble 0x56 d.val 0 0 0 0 0
  | .keypair d e a => assemble 0x60 d.val a.val 0 0 e.val 0
  | .encpk d a b c => assemble 0x61 d.val a.val b.val c.val 0 0
  | .decpk d a b => assemble 0x62 d.val a.val b.val 0 0 0
  | .encsym d a b c => assemble 0x63 d.val a.val b.val c.val 0 0
  | .decsym d a b => assemble 0x64 d.val a.val b.val 0 0 0
  | .sign d a b => assemble 0x65 d.val a.val b.val 0 0 0
  | .verify d a b c => assemble 0x66 d.val a.val b.val c.val 0 0

/-- A row of the opcode table: `cmd &&& mask = pattern` selects the command (30_encoding.md R83). -/
structure OpcodeRow where
  mnemonic : String
  pattern : Word
  mask : Word
deriving DecidableEq, Repr

/-- The match and mask columns of 30_encoding.md R83, row by row. -/
def opcodeRows : List OpcodeRow := [
  ⟨"ALD", 0x01000000, 0xFFF8FFFF⟩,
  ⟨"AST", 0x02000000, 0xFF8FFFFF⟩,
  ⟨"FLD", 0x03000000, 0xFF88FFFF⟩,
  ⟨"FST", 0x04000000, 0xFF88FFFF⟩,
  ⟨"KLD", 0x05000000, 0xFFC8FFFF⟩,
  ⟨"KST", 0x06000000, 0xFF8CFFFF⟩,
  ⟨"LENC", 0x10000000, 0xFF88FFFF⟩,
  ⟨"RENC", 0x11000000, 0xFF88FFFF⟩,
  ⟨"ENCSTR", 0x12000000, 0xFF88FFFF⟩,
  ⟨"BYTEPAD", 0x13000000, 0xFF888FFF⟩,
  ⟨"SUBSTR", 0x14000000, 0xFF8888FF⟩,
  ⟨"KP", 0x20000000, 0xFFFFFFFF⟩] ++ [
  ⟨"SPONGE", 0x28000000, 0xFF8888FF⟩,
  ⟨"SHAKE", 0x29000000, 0xFF888FFF⟩,
  ⟨"CSHAKE", 0x2A000000, 0xFF88888F⟩,
  ⟨"KMAC", 0x30000000, 0xFF88888F⟩,
  ⟨"FADD", 0x40000000, 0xFF888FFF⟩,
  ⟨"FSUB", 0x41000000, 0xFF888FFF⟩,
  ⟨"FMUL", 0x42000000, 0xFF888FFF⟩,
  ⟨"FINV", 0x43000000, 0xFF88FFFF⟩,
  ⟨"FSQRT", 0x44000000, 0xFF88FFFE⟩,
  ⟨"PTNEW", 0x50000000, 0xFFC88FFF⟩,
  ⟨"PTFROMX", 0x51000000, 0xFFC8FFFE⟩,
  ⟨"PTADD", 0x52000000, 0xFFCCCFFF⟩] ++ [
  ⟨"PTMUL", 0x53000000, 0xFFCCCFFF⟩,
  ⟨"PTENC", 0x54000000, 0xFF8CFFFF⟩,
  ⟨"PTDEC", 0x55000000, 0xFFC8FFFF⟩,
  ⟨"PTG", 0x56000000, 0xFFCFFFFF⟩,
  ⟨"KEYPAIR", 0x60000000, 0xFFC8FFCF⟩,
  ⟨"ENCPK", 0x61000000, 0xFF88C8FF⟩,
  ⟨"DECPK", 0x62000000, 0xFF888FFF⟩,
  ⟨"ENCSYM", 0x63000000, 0xFF8888FF⟩,
  ⟨"DECSYM", 0x64000000, 0xFF888FFF⟩,
  ⟨"SIGN", 0x65000000, 0xFF888FFF⟩,
  ⟨"VERIFY", 0x66000000, 0xFF888CFF⟩]

/-- The word matches the row (30_encoding.md R83, R89 step 2). -/
def OpcodeRow.selects (row : OpcodeRow) (w : Word) : Bool := w &&& row.mask == row.pattern

/-- What the decoder reads from an instruction whose bits are `w`, of which the table gives `nbits` and every higher
bit is 0. A command is one 32-bit word (30_encoding.md R80): more bits than that are no command. -/
def decodeTableWord (nbits w : Nat) : Option Instr :=
  if w % 2^nbits < 2^32 then (decode (BitVec.ofNat 32 (w % 2^nbits))).toOption else none

end Sys2Proof
end

