-- ==== Sys2Proof/Machine/State.lean ====
section
/-! DEFINITION. The state of the engine (10_state.md R20) and its reset values (R36), the completion errors
(60_exceptions.md R260), the inputs a step reads, and the reasons a step can stop. -/

namespace Sys2Proof.Machine

/-- The engine has no faults: every failure of a command is a completion code (60_exceptions.md R260), and there is
no behaviour whose treatment is a fault or a stuck state (93_implementation_defined.md Part 1). The type has no
constructor, so no step can answer a fault. Log 6. -/
inductive Fault where
deriving DecidableEq, Repr

/-- Why the model defines no step. -/
inductive Refusal where
  /-- Raised by `exec` for an instruction that has no meaning yet. Safe: the model stops. No arm raises it now. -/
  | notModelled (mnemonic : String)
  /-- Raised by `perform` for a host access that is not a naturally aligned 32-bit read or write
  (20_memory.md R63, 93_implementation_defined.md U1: "refuse"). Safe: the model stops. Log 7. -/
  | accessShape
  /-- Raised by `perform` for a host access at offset 0x80 or above, which is outside the engine
  (20_memory.md R62, 93_implementation_defined.md U2: "refuse"). Safe: the model stops. Log 7. -/
  | outsideEngine
deriving DecidableEq, Repr

/-- The seven ways a command can fail (60_exceptions.md R260, R261). -/
inductive Err where
  /-- The word matches no row of the opcode table. -/
  | illegal
  /-- An integer operand is outside the function's domain. -/
  | domainError
  /-- A buffer operand has the wrong length. -/
  | malformedInput
  /-- (x, y) fails the curve equation. -/
  | invalidPoint
  /-- The radicand is a quadratic non-residue. -/
  | noSquareRoot
  /-- The recomputed tag differs from the received one. -/
  | authenticationFailure
  /-- The result would have more than BMAX bytes. -/
  | capacity
deriving DecidableEq, Repr

/-- What reaches the engine from outside: a host bus read or write of `size` bytes at byte offset `off`
(20_memory.md R55, R63), or the platform's reset (70_reset_and_hazards.md R290). -/
inductive Input where
  | read (off size : Nat)
  | write (off size : Nat) (v : Word)
  | reset
deriving DecidableEq, Repr

/-- The state (10_state.md R20). The last three fields are the model's own, not the spec's. -/
structure State where
  /-- N0..N7, the integer registers (R21). -/
  n : Vector (BitVec 64) 8
  /-- B0..B7, the byte buffers: each the byte string it holds (R23). -/
  b : Vector Bytes 8
  /-- A[0..24], the Keccak state (R24). -/
  a : Lanes
  /-- F0..F7, the field registers (R25). -/
  f : Vector Fe 8
  /-- P0..P3, the point registers (R26). -/
  p : Vector Point 4
  /-- K0..K3, the scalar registers (R27). -/
  k : Vector (BitVec 512) 4
  /-- CMD (R29). -/
  cmd : Word
  /-- STATUS (R30). -/
  status : Word
  /-- BSEL (R31). -/
  bsel : BitVec 3
  /-- BPTR (R31). -/
  bptr : Word
  /-- The parameters BMAX, r, G, which are not state but arguments of the step function (R20): no step changes
  them. The model's own field. Log 1. -/
  params : Config.Params
  /-- The host accesses and resets still to be performed, in issue order (20_memory.md R65). The model's own
  field. Log 2. -/
  inputs : List Input
  /-- The values the performed reads have returned to the host, oldest first. The model's own field. Log 3. -/
  replies : List Word
deriving DecidableEq, Repr

/-- The state after reset for given parameters: every register 0, every buffer empty, every point O, STATUS 0
(10_state.md R36, 70_reset_and_hazards.md R290). -/
def State.resetWith (params : Config.Params) : State where
  n := Vector.replicate 8 0
  b := Vector.replicate 8 []
  a := Vector.replicate 25 0
  f := Vector.replicate 8 (Fe.ofNat 0)
  p := Vector.replicate 4 Config.neutral
  k := Vector.replicate 4 0
  cmd := 0
  status := 0
  bsel := 0
  bptr := 0
  params := params
  inputs := []
  replies := []

/-- The state after reset, with the parameters' defaults (10_state.md R36; 00_scope.md R11 to R13; Log 1). -/
def State.reset : State := State.resetWith Config.defaultParams

/-- The outcome of a step of this machine. -/
abbrev Out := Host.Outcome State Fault Refusal

end Sys2Proof.Machine
end

