-- ==== Sys2Proof/Machine/Flags.lean ====
section
/-! DEFINITION. The STATUS register: its fields (10_state.md R30), the completion codes (60_exceptions.md R261), and
every way STATUS changes: acceptance and completion of a command (30_encoding.md R89 steps 1 and 6), the host's
write-1-to-clear. There are no other flags (10_state.md R34). -/

namespace Sys2Proof.Machine

/-- BUSY, bit 0 (10_state.md R30). -/
def statusBusy (st : Word) : Bool := st.getLsbD 0
/-- DONE, bit 1 (10_state.md R30). -/
def statusDone (st : Word) : Bool := st.getLsbD 1
/-- ESTK, bit 2 (10_state.md R30). -/
def statusEstk (st : Word) : Bool := st.getLsbD 2
/-- CODE, bits 7:4 (10_state.md R30). -/
def statusCode (st : Word) : BitVec 4 := st.extractLsb' 4 4

/-- STATUS of its fields; bit 3 and bits 31:8 are reserved and 0 (10_state.md R30). -/
def mkStatus (busy done estk : Bool) (code : BitVec 4) : Word :=
  0#24 ++ code ++ 0#1 ++ BitVec.ofBool estk ++ BitVec.ofBool done ++ BitVec.ofBool busy

/-- The code of a command that completed and wrote its results (60_exceptions.md R261). -/
def okCode : BitVec 4 := 0

/-- The completion codes (60_exceptions.md R261). -/
def errCode : Err → BitVec 4
  | .illegal => 1
  | .domainError => 2
  | .malformedInput => 3
  | .invalidPoint => 4
  | .noSquareRoot => 5
  | .authenticationFailure => 6
  | .capacity => 7

/-- STATUS when a command is accepted: BUSY <- 1, DONE <- 0 (30_encoding.md R89 step 1). -/
def acceptedStatus (st : Word) : Word :=
  mkStatus true false (statusEstk st) (statusCode st)

/-- STATUS when a command completes: CODE <- code; ESTK <- 1 if the code is not 0; BUSY <- 0; DONE <- 1
(30_encoding.md R89 step 6). -/
def completedStatus (code : BitVec 4) (st : Word) : Word :=
  mkStatus false true (statusEstk st || code != 0) code

/-- STATUS after a host write of v: DONE and ESTK are cleared where v has a 1, nothing else changes
(10_state.md R30). -/
def clearedStatus (v st : Word) : Word :=
  mkStatus (statusBusy st) (statusDone st && !v.getLsbD 1) (statusEstk st && !v.getLsbD 2) (statusCode st)

/-- STATUS as the host reads it: the reserved bits read 0 (10_state.md R30). -/
def shownStatus (st : Word) : Word :=
  mkStatus (statusBusy st) (statusDone st) (statusEstk st) (statusCode st)

end Sys2Proof.Machine
end

