-- ==== Sys2Proof/Machine/Operands.lean ====
section
/-! DEFINITION. How operands are read as integers, strings and lanes, and how results become bytes: the byte-string
notation of 00_scope.md R16 and R17, the lane order of 20_memory.md R53, the lsb immediate of 30_encoding.md R86. -/

namespace Sys2Proof.Machine

/-- `bitlength(v)`: the least n with v < 2^n (00_scope.md R16). -/
def bitlength (v : Nat) : Nat := if v = 0 then 0 else Nat.log2 v + 1

/-- `OS2IP(X)`: the unsigned big-endian integer of a byte string (00_scope.md R17, 20_memory.md R52). -/
def os2ip (x : Bytes) : Nat := x.foldl (fun acc byte => acc * 256 + byte.toNat) 0

/-- `I2OSP(v, n)`: the n-byte big-endian string of v (00_scope.md R17); the spec uses it for v < 256^n only. -/
def i2osp (v : Nat) : Nat → Bytes
  | 0 => []
  | n + 1 => i2osp (v / 256) n ++ [BitVec.ofNat 8 v]

/-- The little-endian integer of a byte string, `Σ X[j]·256^j` (00_scope.md R17). -/
def leInt : Bytes → Nat
  | [] => 0
  | byte :: rest => byte.toNat + 256 * leInt rest

/-- `LE64(X)` for 8 bytes (00_scope.md R17). -/
def le64 (x : Bytes) : Lane := BitVec.ofNat 64 (leInt x)

/-- `LE64inv(v)`: byte j is bits 8j+7 .. 8j (00_scope.md R17, 20_memory.md R53). -/
def le64inv (v : Lane) : Bytes := (List.range 8).map fun j => v.extractLsb' (8 * j) 8

/-- `X[lo:hi)`: the bytes with index in [lo, hi) (00_scope.md R17). -/
def slice (x : Bytes) (lo hi : Nat) : Bytes := (x.drop lo).take (hi - lo)

/-- `X xor Y`, bytewise, for equal lengths (00_scope.md R17). -/
def xorBytes (x y : Bytes) : Bytes := List.zipWith (· ^^^ ·) x y

/-- `0^n`: n bytes 00 (00_scope.md R17). -/
def zeros (n : Nat) : Bytes := List.replicate n 0

/-- The 25 lanes of a 200-byte string: lane i is LE64 of bytes 8i to 8i+7 (20_memory.md R53). -/
def lanesOfBytes (x : Bytes) : Lanes := Vector.ofFn fun i => le64 (slice x (8 * i.val) (8 * i.val + 8))

/-- The 200-byte string of the 25 lanes (20_memory.md R53). -/
def bytesOfLanes (a : Lanes) : Bytes := a.toList.flatMap le64inv

/-- The requested least significant bit: IMM[0] (30_encoding.md R86). Log 13. -/
def lsbOf (imm : BitVec 4) : Nat := (imm.extractLsb' 0 1).toNat

end Sys2Proof.Machine
end

