-- ==== Sys2Proof/Machine/Ops.lean ====
section
/-! DEFINITION. The named operations over the state: reading and writing each register file (00_scope.md R18), the
buffer space (20_memory.md R50), accepting a command, completing it, and taking an error (30_encoding.md R89,
60_exceptions.md R262), with the host's acknowledgement beside it (R266). -/

namespace Sys2Proof.Machine

/-! ### The register files (00_scope.md R18) -/

/-- `N[i]`. -/
def State.readN (s : State) (i : Idx8) : BitVec 64 := s.n[i]
/-- `N[i] <- v`. -/
def State.writeN (s : State) (i : Idx8) (v : BitVec 64) : State := { s with n := s.n.set i v }
/-- `B[i]`. -/
def State.readB (s : State) (i : Idx8) : Bytes := s.b[i]
/-- `B[i] <- x`: the whole string is replaced (20_memory.md R50). -/
def State.writeB (s : State) (i : Idx8) (x : Bytes) : State := { s with b := s.b.set i x }
/-- `A <- a`. -/
def State.writeA (s : State) (a : Lanes) : State := { s with a := a }
/-- `F[i]`. -/
def State.readF (s : State) (i : Idx8) : Fe := s.f[i]
/-- `F[i] <- v`. -/
def State.writeF (s : State) (i : Idx8) (v : Fe) : State := { s with f := s.f.set i v }
/-- `P[i]`. -/
def State.readP (s : State) (i : Idx4) : Point := s.p[i]
/-- `P[i] <- v`: the whole point is replaced (10_state.md R26). -/
def State.writeP (s : State) (i : Idx4) (v : Point) : State := { s with p := s.p.set i v }
/-- `K[i]`. -/
def State.readK (s : State) (i : Idx4) : BitVec 512 := s.k[i]
/-- `K[i] <- v`. -/
def State.writeK (s : State) (i : Idx4) (v : BitVec 512) : State := { s with k := s.k.set i v }

/-- The all-zero Keccak state. -/
def zeroLanes : Lanes := Vector.replicate 25 0

/-! ### The buffer space (20_memory.md R50) -/

/-- The byte at (i, j) of the buffer space, where it exists: bytes beyond a buffer's length do not
(10_state.md R23). -/
def State.byteAt (s : State) (i : Idx8) (j : Nat) : Option Byte := (s.readB i)[j]?

/-- The form of the buffer space: every buffer holds at most BMAX bytes (10_state.md R23). A byte string is its own
canonical form: equal buffer spaces are equal data. Log 5. -/
def Memory.wf (bmax : Nat) (m : Vector Bytes 8) : Bool := m.toList.all fun x => decide (x.length ≤ bmax)

/-! ### Accepting, completing, failing (30_encoding.md R89) -/

/-- A command word is accepted: CMD <- w, BUSY <- 1, DONE <- 0 (R89 step 1). -/
def accept (w : Word) (s : State) : State := { s with cmd := w, status := acceptedStatus s.status }

/-- A command completes with OK (R89 step 6). -/
def complete (s : State) : State := { s with status := completedStatus okCode s.status }

/-- `raise e`: the engine's trap entry (60_exceptions.md R262). Every register keeps its value, STATUS.CODE <- e,
ESTK <- 1, BUSY <- 0, DONE <- 1. -/
def raise (e : Err) (s : State) : State := { s with status := completedStatus (errCode e) s.status }

/-- The host's acknowledgement, a write of v to STATUS: there is no other return from a failure
(60_exceptions.md R266, 10_state.md R30). -/
def acknowledge (v : Word) (s : State) : State := { s with status := clearedStatus v s.status }

/-- The state a command leaves: `written` if it reached no `raise`, else the old state with the error
(R89 steps 4 and 6, 60_exceptions.md R262). -/
def settle (written : Except Err State) (s : State) : State :=
  match written with
  | .ok t => complete t
  | .error e => raise e s

/-- As `settle` for a command of class S: A <- 0 whatever the code (10_state.md R28, 30_encoding.md R89 step 5). -/
def settleS (written : Except Err State) (s : State) : State :=
  match written with
  | .ok t => complete (t.writeA zeroLanes)
  | .error e => raise e (s.writeA zeroLanes)

/-- The outcome of a command outside class S. -/
def commit (written : Except Err State) (s : State) : Out := .next (settle written s)

/-- The outcome of a class-S command. -/
def commitS (written : Except Err State) (s : State) : Out := .next (settleS written s)

end Sys2Proof.Machine
end

