-- ==== Sys2Proof/Machine/Field.lean ====
section
/-! DEFINITION. Field arithmetic modulo p (44_field.md R170 to R172, R181), the load and store commands FLD, FST,
KLD, KST (R173 to R176) and the arithmetic commands FADD, FSUB, FMUL, FINV, FSQRT (R177 to R181). -/

namespace Sys2Proof.Machine

/-- `fadd(a, b) = (a + b) mod p` (R172). -/
def fadd (a b : Fe) : Fe := Fe.ofNat (a.val + b.val)

/-- `fsub(a, b) = (a - b) mod p`, in [0, p) also when a < b (R171, R172). -/
def fsub (a b : Fe) : Fe := Fe.ofNat (a.val + (fieldPrime - b.val))

/-- `fmul(a, b) = (a · b) mod p`, the product exact before reduction (R172, R179). -/
def fmul (a b : Fe) : Fe := Fe.ofNat (a.val * b.val)

/-- The bits i-1 down to 0 of the exponent, high to low: square, and multiply where the bit is set. -/
def powLoop (a : Fe) (e : Nat) : Nat → Fe → Fe
  | 0, t => t
  | i + 1, t => powLoop a e i (if e.testBit i then fmul (fmul t t) a else fmul t t)

/-- `fpow(a, e) = a^e mod p`, with `fpow(a, 0) = 1` also for a = 0 (R172). -/
def fpow (a : Fe) (e : Nat) : Fe := powLoop a e (bitlength e) (Fe.ofNat 1)

/-- `finv(a) = fpow(a, p - 2)` (R172). The spec defines it for a ≠ 0; FINV refuses 0 with DomainError, and the point
formulas never meet 0 on the curve (Log 9). -/
def finv (a : Fe) : Fe := fpow a (fieldPrime - 2)

/-- The exponent (p + 1)/4 (R181). -/
def sqrtExponent : Nat := (fieldPrime + 1) / 4

/-- `fsqrt(v, lsb)`: the root with the requested least significant bit, or NoSquareRoot (R181). -/
def fsqrt (v : Fe) (lsb : Nat) : Except Err Fe :=
  let candidate := fpow v sqrtExponent
  let t := if candidate.val % 2 ≠ lsb then Fe.ofNat (fieldPrime - candidate.val) else candidate
  if fmul t t ≠ v then .error .noSquareRoot else .ok t

/-- `FLD Fd, Ba` (R173). -/
def execFld (d a : Idx8) (s : State) : Out :=
  commit
    (if (s.readB a).length ≠ Config.feBytes then .error .malformedInput
     else .ok (s.writeF d (Fe.ofNat (os2ip (s.readB a))))) s

/-- `FST Bd, Fa` (R174). -/
def execFst (d a : Idx8) (s : State) : Out :=
  commit (.ok (s.writeB d (i2osp (s.readF a).val Config.feBytes))) s

/-- `KLD Kd, Ba` (R175): not reduced modulo r. -/
def execKld (d : Idx4) (a : Idx8) (s : State) : Out :=
  commit
    (if Config.kBytes < (s.readB a).length then .error .malformedInput
     else .ok (s.writeK d (BitVec.ofNat 512 (os2ip (s.readB a))))) s

/-- `KST Bd, Ka` (R176). -/
def execKst (d : Idx8) (a : Idx4) (s : State) : Out :=
  commit (.ok (s.writeB d (i2osp (s.readK a).toNat Config.kBytes))) s

/-- `FADD Fd, Fa, Fb` (R177). -/
def execFadd (d a b : Idx8) (s : State) : Out :=
  commit (.ok (s.writeF d (fadd (s.readF a) (s.readF b)))) s

/-- `FSUB Fd, Fa, Fb` (R178). -/
def execFsub (d a b : Idx8) (s : State) : Out :=
  commit (.ok (s.writeF d (fsub (s.readF a) (s.readF b)))) s

/-- `FMUL Fd, Fa, Fb` (R179). -/
def execFmul (d a b : Idx8) (s : State) : Out :=
  commit (.ok (s.writeF d (fmul (s.readF a) (s.readF b)))) s

/-- `FINV Fd, Fa` (R180). -/
def execFinv (d a : Idx8) (s : State) : Out :=
  commit
    (if s.readF a = Fe.ofNat 0 then .error .domainError
     else .ok (s.writeF d (finv (s.readF a)))) s

/-- `FSQRT Fd, Fa, #lsb` (R181). -/
def execFsqrt (d a : Idx8) (imm : BitVec 4) (s : State) : Out :=
  commit ((fsqrt (s.readF a) (lsbOf imm)).map fun t => s.writeF d t) s

end Sys2Proof.Machine
end

