-- ==== Sys2Proof/Machine/Curve.lean ====
section
/-! DEFINITION. Edwards-curve points (45_point.md): the curve equation (R201), addition (R204), scalar multiplication
(R206), the point encoding (R208), and the commands PTNEW, PTFROMX, PTADD, PTMUL, PTENC, PTDEC, PTG. -/

namespace Sys2Proof.Machine

/-- `oncurve(x, y)`: x² + y² = 1 + d·x²·y² (R201). -/
def onCurve (q : Point) : Bool :=
  fadd (fmul q.x q.x) (fmul q.y q.y) ==
    fadd (Fe.ofNat 1) (fmul Config.curveD (fmul (fmul q.x q.x) (fmul q.y q.y)))

/-- `add(Q1, Q2)`, the complete twisted-Edwards addition (R204). -/
def ptAdd (q1 q2 : Point) : Point :=
  let t := fmul Config.curveD (fmul (fmul q1.x q2.x) (fmul q1.y q2.y))
  { x := fmul (fadd (fmul q1.x q2.y) (fmul q1.y q2.x)) (finv (fadd (Fe.ofNat 1) t))
    y := fmul (fsub (fmul q1.y q2.y) (fmul q1.x q2.x)) (finv (fsub (Fe.ofNat 1) t)) }

/-- The loop of `scalarMultiply` over the bits i-1 down to 0 of k, from V (R206). -/
def mulLoop (q : Point) (k : Nat) : Nat → Point → Point
  | 0, v => v
  | i + 1, v =>
    let doubled := ptAdd v v
    mulLoop q k i (if k.testBit i then ptAdd doubled q else doubled)

/-- `scalarMultiply(Q, k)`: double-and-add, most significant bit first, from O (R206). -/
def scalarMultiply (q : Point) (k : Nat) : Point := mulLoop q k (bitlength k) Config.neutral

/-- `Point(x, y)`, the validating constructor (R202). -/
def pointNew (x y : Fe) : Except Err Point :=
  if onCurve ⟨x, y⟩ then .ok ⟨x, y⟩ else .error .invalidPoint

/-- `Point(x, lsb)` (R203). -/
def pointFromX (x : Fe) (lsb : Nat) : Except Err Point :=
  let xx := fmul x x
  let num := fsub (Fe.ofNat 1) xx
  let den := fsub (Fe.ofNat 1) (fmul Config.curveD xx)
  (fsqrt (fmul num (finv den)) lsb).map fun y => ⟨x, y⟩

/-- `ptenc(Q)` (R208). -/
def ptEnc (q : Point) : Bytes := i2osp q.x.val Config.feBytes ++ i2osp q.y.val Config.feBytes

/-- `ptdec(E)` of a 112-byte string, with the curve check (R208, R210; 90_conflicts.md C5). -/
def ptDec (e : Bytes) : Except Err Point :=
  pointNew (Fe.ofNat (os2ip (slice e 0 Config.feBytes)))
    (Fe.ofNat (os2ip (slice e Config.feBytes Config.ptBytes)))

/-- `PTNEW Pd, Fa, Fb` (R202). -/
def execPtnew (d : Idx4) (a b : Idx8) (s : State) : Out :=
  commit ((pointNew (s.readF a) (s.readF b)).map fun q => s.writeP d q) s

/-- `PTFROMX Pd, Fa, #lsb` (R203). -/
def execPtfromx (d : Idx4) (a : Idx8) (imm : BitVec 4) (s : State) : Out :=
  commit ((pointFromX (s.readF a) (lsbOf imm)).map fun q => s.writeP d q) s

/-- `PTADD Pd, Pa, Pb` (R205). -/
def execPtadd (d a b : Idx4) (s : State) : Out :=
  commit (.ok (s.writeP d (ptAdd (s.readP a) (s.readP b)))) s

/-- `PTMUL Pd, Pa, Kb` (R207). -/
def execPtmul (d a b : Idx4) (s : State) : Out :=
  commit (.ok (s.writeP d (scalarMultiply (s.readP a) (s.readK b).toNat))) s

/-- `PTENC Bd, Pa` (R209). -/
def execPtenc (d : Idx8) (a : Idx4) (s : State) : Out :=
  commit (.ok (s.writeB d (ptEnc (s.readP a)))) s

/-- `PTDEC Pd, Ba` (R210). -/
def execPtdec (d : Idx4) (a : Idx8) (s : State) : Out :=
  commit
    (if (s.readB a).length ≠ Config.ptBytes then .error .malformedInput
     else (ptDec (s.readB a)).map fun q => s.writeP d q) s

/-- `PTG Pd` (R211). -/
def execPtg (d : Idx4) (s : State) : Out := commit (.ok (s.writeP d s.params.g)) s

end Sys2Proof.Machine
end

