-- ==== Sys2Proof/Machine/BitEncoding.lean ====
section
/-! DEFINITION. BitEncoding (40_bitencoding.md): the functions of R100 and the commands LENC, RENC, ENCSTR, BYTEPAD,
SUBSTR (R101 to R105). -/

namespace Sys2Proof.Machine

/-- The length in bytes of `minbytes(x)`: max(1, ⌈bitlength(x)/8⌉) (R100). -/
def minLen (x : Nat) : Nat := max 1 ((bitlength x + 7) / 8)

/-- `left_encode(x)` (R100). The spec defines it for x < 2^2040 only; LENC checks that, and every other use has a
length or a width far below (Log 14). -/
def leftEncode (x : Nat) : Bytes := BitVec.ofNat 8 (minLen x) :: i2osp x (minLen x)

/-- `right_encode(x)` (R100), with the same domain as `leftEncode` (Log 14). -/
def rightEncode (x : Nat) : Bytes := i2osp x (minLen x) ++ [BitVec.ofNat 8 (minLen x)]

/-- `encode_string(S)` (R100). -/
def encodeString (x : Bytes) : Bytes := leftEncode (8 * x.length) ++ x

/-- `(-n) mod w` for w > 0: how many zero bytes reach the next multiple of w (R100). -/
def padTo (n w : Nat) : Nat := (w - n % w) % w

/-- `bytepad(X, w)` for w > 0 (R100). -/
def bytepad (x : Bytes) (w : Nat) : Bytes :=
  let z := leftEncode w ++ x
  z ++ zeros (padTo z.length w)

/-- `substring(X, lo, hi)` (R100). -/
def substring (x : Bytes) (lo hi : Nat) : Bytes :=
  if hi ≤ lo ∨ x.length ≤ lo then [] else slice x lo (min hi x.length)

/-- `LENC Bd, Ba` (R101). -/
def execLenc (d a : Idx8) (s : State) : Out :=
  let x := os2ip (s.readB a)
  commit (if 255 < minLen x then .error .domainError else .ok (s.writeB d (leftEncode x))) s

/-- `RENC Bd, Ba` (R102). -/
def execRenc (d a : Idx8) (s : State) : Out :=
  let x := os2ip (s.readB a)
  commit (if 255 < minLen x then .error .domainError else .ok (s.writeB d (rightEncode x))) s

/-- `ENCSTR Bd, Ba` (R103). -/
def execEncstr (d a : Idx8) (s : State) : Out :=
  let result := encodeString (s.readB a)
  commit (if s.params.bmax < result.length then .error .capacity else .ok (s.writeB d result)) s

/-- `BYTEPAD Bd, Ba, Nb` (R104): the padded length is compared with BMAX before the string is made. -/
def execBytepad (d a b : Idx8) (s : State) : Out :=
  let w := (s.readN b).toNat
  let z := leftEncode w ++ s.readB a
  commit
    (if w = 0 then .error .domainError
     else if s.params.bmax < z.length + padTo z.length w then .error .capacity
     else .ok (s.writeB d (bytepad (s.readB a) w))) s

/-- `SUBSTR Bd, Ba, Nb, Nc` (R105). -/
def execSubstr (d a b c : Idx8) (s : State) : Out :=
  commit (.ok (s.writeB d (substring (s.readB a) (s.readN b).toNat (s.readN c).toNat))) s

end Sys2Proof.Machine
end

