-- ==== Sys2Proof/Machine/Keccak.lean ====
section
/-! DEFINITION. The Keccak-p[1600,24] permutation (41_keccak.md R120 to R125, tables R122, R124, R129) and the
commands KP, ALD, AST (R126 to R128). The tables and the lane order are [from general knowledge] in the spec
(93_implementation_defined.md G1 to G4; Log 10). -/

namespace Sys2Proof.Machine

/-- The lane at column x and row y, both taken modulo 5 (R120). -/
def lane (a : Lanes) (x y : Nat) : Lane := a[x % 5 + 5 * (y % 5)]'(by omega)

/-- `C[x]`: the parity of column x (R121). -/
def columnParity (a : Lanes) : Vector Lane 5 :=
  Vector.ofFn fun x => lane a x 0 ^^^ lane a x 1 ^^^ lane a x 2 ^^^ lane a x 3 ^^^ lane a x 4

/-- `D[x] = C[x-1] ^ rotl64(C[x+1], 1)` (R121). -/
def thetaEffect (parity : Vector Lane 5) : Vector Lane 5 :=
  Vector.ofFn fun x => parity[(x.val + 4) % 5] ^^^ (parity[(x.val + 1) % 5]).rotateLeft 1

/-- theta (R121; the columns as 90_conflicts.md C1 resolves them). -/
def theta (a : Lanes) : Lanes :=
  let effect := thetaEffect (columnParity a)
  Vector.ofFn fun i => a[i] ^^^ effect[i.val % 5]

/-- `RHO`: the rotation offset of source lane i = x + 5y (R122). -/
def rhoOffset : Vector Nat 25 :=
  #v[0, 1, 62, 28, 27,
     36, 44, 6, 55, 20,
     3, 10, 43, 25, 39,
     41, 45, 15, 21, 8,
     18, 2, 61, 56, 14]

/-- The source lane of each destination lane: the inverse view of R122. -/
def piSource : Vector (Fin 25) 25 :=
  #v[0, 6, 12, 18, 24,
     3, 9, 10, 16, 22,
     1, 7, 13, 19, 20,
     4, 5, 11, 17, 23,
     2, 8, 14, 15, 21]

/-- rho+pi (R122). -/
def rhoPi (a : Lanes) : Lanes :=
  Vector.ofFn fun j => (a[piSource[j]]).rotateLeft rhoOffset[piSource[j]]

/-- chi (R123): all three operands are lanes of the input state. -/
def chi (a : Lanes) : Lanes :=
  Vector.ofFn fun i =>
    a[i] ^^^ (~~~(lane a (i.val % 5 + 1) (i.val / 5)) &&& lane a (i.val % 5 + 2) (i.val / 5))

/-- The table of R124 as it is printed, one row for each k from 0 to 11: RC[k] beside RC[k + 12]. -/
def roundConstantRows : Vector (Lane × Lane) 12 :=
  #v[(0x0000000000000001, 0x000000008000808B),
     (0x0000000000008082, 0x800000000000008B),
     (0x800000000000808A, 0x8000000000008089),
     (0x8000000080008000, 0x8000000000008003),
     (0x000000000000808B, 0x8000000000008002),
     (0x0000000080000001, 0x8000000000000080),
     (0x8000000080008081, 0x000000000000800A),
     (0x8000000000008009, 0x800000008000000A),
     (0x000000000000008A, 0x8000000080008081),
     (0x0000000000000088, 0x8000000000008080),
     (0x0000000080008009, 0x0000000080000001),
     (0x000000008000000A, 0x8000000080008008)]

/-- `RC[ir]`: rounds 0 to 11 stand in the left column of the table, 12 to 23 in the right one (R124). -/
def roundConstant : Vector Lane 24 :=
  Vector.ofFn fun ir =>
    let row := roundConstantRows[ir.val % 12]
    if ir.val < 12 then row.1 else row.2

/-- iota (R124). -/
def iota (a : Lanes) (ir : Fin 24) : Lanes := a.set 0 (a[0] ^^^ roundConstant[ir])

/-- `Rnd(a, ir)` (R125). -/
def keccakRound (a : Lanes) (ir : Fin 24) : Lanes := iota (chi (rhoPi (theta a))) ir

/-- `keccak_p(a)`: 24 rounds, ir = 0 to 23 in that order (R125; 00_scope.md R9). -/
def keccakP (a : Lanes) : Lanes := (List.finRange 24).foldl keccakRound a

/-- `KP` (R126). Not of class S: A keeps the result. -/
def execKp (s : State) : Out := commit (.ok (s.writeA (keccakP s.a))) s

/-- `ALD Ba` (R127). -/
def execAld (a : Idx8) (s : State) : Out :=
  commit
    (if (s.readB a).length ≠ Config.stateBytes then .error .malformedInput
     else .ok (s.writeA (lanesOfBytes (s.readB a)))) s

/-- `AST Bd` (R128). -/
def execAst (d : Idx8) (s : State) : Out := commit (.ok (s.writeB d (bytesOfLanes s.a))) s

end Sys2Proof.Machine
end

