-- ==== Sys2Proof/Machine/Sponge.lean ====
section
/-! DEFINITION. The sponge controller (42_sponge.md): padding (R140), the sponge function (R141), SHAKE256 and
cSHAKE256 (R146), and the class-S commands SPONGE, SHAKE, CSHAKE (R142 to R144). -/

namespace Sys2Proof.Machine

/-- `pad(m, sfx)`: q = 136 - (m mod 136) bytes 00, the suffix byte XORed into the first, 80 into the last
(R140; 90_conflicts.md C2). -/
def padding (m : Nat) (sfx : Byte) : Bytes :=
  let q := Config.rate - m % Config.rate
  (List.range q).map fun i => (if i = 0 then sfx else 0) ^^^ (if i = q - 1 then 0x80 else 0)

/-- One absorbed block: lanes 0 to 16 are XORed with the block's 17 little-endian lanes, then the permutation
(R141). Lanes 17 to 24 are never XORed with input. -/
def absorbBlock (a : Lanes) (block : Bytes) : Lanes :=
  keccakP (Vector.ofFn fun i =>
    if i.val < Config.rateLanes then a[i] ^^^ le64 (slice block (8 * i.val) (8 * i.val + 8)) else a[i])

/-- ABSORB: the first nb blocks of 136 bytes, in order (R141). -/
def absorb : Nat → Bytes → Lanes → Lanes
  | 0, _, a => a
  | nb + 1, x, a => absorb nb (x.drop Config.rate) (absorbBlock a (x.take Config.rate))

/-- The rate portion as bytes, lanes 0 to 16 (R141). -/
def rateBytes (a : Lanes) : Bytes := (a.toList.take Config.rateLanes).flatMap le64inv

/-- SQUEEZE: a block of 136 bytes, and `more` further blocks, each after another permutation (R141). -/
def squeeze : Nat → Lanes → Bytes
  | 0, a => rateBytes a
  | more + 1, a => rateBytes a ++ squeeze more (keccakP a)

/-- How many blocks the loop of R141 emits after the first: ⌈outLen/136⌉ - 1, and 0 for outLen = 0. DEDUCED from the
loop's exit test; R141 states the same count. -/
def moreBlocks (outLen : Nat) : Nat := (outLen + (Config.rate - 1)) / Config.rate - 1

/-- `sponge(M, sfx, L)` for L a multiple of 8: L/8 bytes (R141). -/
def sponge (m : Bytes) (sfx : Byte) (bits : Nat) : Bytes :=
  let padded := m ++ padding m.length sfx
  let a := absorb (padded.length / Config.rate) padded zeroLanes
  (squeeze (moreBlocks (bits / 8)) a).take (bits / 8)

/-- The suffix byte of SHAKE256 (R140). -/
def shakeSuffix : Byte := 0x1F
/-- The suffix byte of cSHAKE256 (R140). -/
def cshakeSuffix : Byte := 0x04

/-- `shake256(M, L)` (R146). -/
def shake256 (m : Bytes) (bits : Nat) : Bytes := sponge m shakeSuffix bits

/-- `cshake256(M, L, Nf, S)` (R146). -/
def cshake256 (m : Bytes) (bits : Nat) (name custom : Bytes) : Bytes :=
  if name.length = 0 ∧ custom.length = 0 then shake256 m bits
  else sponge (bytepad (encodeString name ++ encodeString custom) Config.rate ++ m) cshakeSuffix bits

/-- `SPONGE Bd, Ba, Nb, Nc` (R142). -/
def execSponge (d a b c : Idx8) (s : State) : Out :=
  let bits := (s.readN b).toNat
  let sfx := (s.readN c).toNat
  commitS
    (if bits % 8 ≠ 0 then .error .domainError
     else if sfx < 0x01 ∨ 0x7F < sfx then .error .domainError
     else if s.params.bmax < bits / 8 then .error .capacity
     else .ok (s.writeB d (sponge (s.readB a) (BitVec.ofNat 8 sfx) bits))) s

/-- `SHAKE Bd, Ba, Nb` (R143). -/
def execShake (d a b : Idx8) (s : State) : Out :=
  let bits := (s.readN b).toNat
  commitS
    (if bits % 8 ≠ 0 then .error .domainError
     else if s.params.bmax < bits / 8 then .error .capacity
     else .ok (s.writeB d (shake256 (s.readB a) bits))) s

/-- `CSHAKE Bd, Ba, Nb, Bc, Be` (R144). -/
def execCshake (d a b c e : Idx8) (s : State) : Out :=
  let bits := (s.readN b).toNat
  commitS
    (if bits % 8 ≠ 0 then .error .domainError
     else if s.params.bmax < bits / 8 then .error .capacity
     else .ok (s.writeB d (cshake256 (s.readB a) bits (s.readB c) (s.readB e)))) s

end Sys2Proof.Machine
end

