-- ==== Sys2Proof/Machine/Kmac.lean ====
section
/-! DEFINITION. The KMACXOF256 datapath (43_kmac.md R160) and the class-S command KMAC (R161). -/

namespace Sys2Proof.Machine

/-- The function name "KMAC": 4B 4D 41 43 (R160). -/
def kmacName : Bytes := [0x4B, 0x4D, 0x41, 0x43]

/-- `kmacxof256(K, X, L, S)` (R160; 90_conflicts.md C3). -/
def kmacxof256 (key data : Bytes) (bits : Nat) (custom : Bytes) : Bytes :=
  cshake256 (bytepad (encodeString key) Config.rate ++ data ++ rightEncode 0) bits kmacName custom

/-- `KMAC Bd, Ba, Bb, Nc, Be` (R161). -/
def execKmac (d a b c e : Idx8) (s : State) : Out :=
  let bits := (s.readN c).toNat
  commitS
    (if bits % 8 ≠ 0 then .error .domainError
     else if s.params.bmax < bits / 8 then .error .capacity
     else .ok (s.writeB d (kmacxof256 (s.readB a) (s.readB b) bits (s.readB e)))) s

end Sys2Proof.Machine
end

