-- ==== Sys2Proof/Machine/Protocols.lean ====
section
/-! DEFINITION. The protocol commands (46_protocols.md): the derivations and layouts of R230 and R238, scalar
arithmetic modulo r (44_field.md R182), and the class-S commands KEYPAIR, ENCPK, DECPK, ENCSYM, DECSYM, SIGN, VERIFY
(R231 to R237). -/

namespace Sys2Proof.Machine

/-! ### Customization strings, as ASCII bytes (R230) -/

/-- "SK" -/
def customSK : Bytes := [0x53, 0x4B]
/-- "PK" -/
def customPK : Bytes := [0x50, 0x4B]
/-- "PKE" -/
def customPKE : Bytes := [0x50, 0x4B, 0x45]
/-- "PKA" -/
def customPKA : Bytes := [0x50, 0x4B, 0x41]
/-- "S" -/
def customS : Bytes := [0x53]
/-- "N" -/
def customN : Bytes := [0x4E]
/-- "T" -/
def customT : Bytes := [0x54]

/-! ### Scalars modulo r (44_field.md R182) -/

/-- `(x · 4) mod r` (R182). -/
def timesCofactor (r x : Nat) : Nat := (x * Config.cofactor) % r

/-- `(k - h·s) mod r`, in [0, r) also when the difference is negative (R182). -/
def response (r k h s : Nat) : Nat := (((k : Int) - (h : Int) * (s : Int)) % (r : Int)).toNat

/-- `privscalar(pw)` (R230). -/
def privScalar (r : Nat) (pw : Bytes) : Nat := timesCofactor r (os2ip (kmacxof256 pw [] 512 customSK))

/-- `xbytes(Q)` (R230). -/
def xBytes (q : Point) : Bytes := i2osp q.x.val Config.feBytes

/-! ### The symmetric layer, common to both variants -/

/-- `ke`, the first half of the 128-byte derivation (R230). -/
def encryptionKey (derived : Bytes) : Bytes := slice derived 0 Config.halfBytes

/-- `ka`, the second half (R230). -/
def authenticationKey (derived : Bytes) : Bytes := slice derived Config.halfBytes (2 * Config.halfBytes)

/-- The keystream role: `kmac(ke, "", 8n, "PKE") xor text` for an n-byte text (R230). -/
def applyKeystream (ke text : Bytes) : Bytes := xorBytes (kmacxof256 ke [] (8 * text.length) customPKE) text

/-- The tag `kmac(ka, m, 512, "PKA")` (R232). -/
def tagOf (ka m : Bytes) : Bytes := kmacxof256 ka m 512 customPKA

/-- `c ‖ t` of a message under the 128-byte derivation (R232, R234). -/
def sealText (derived m : Bytes) : Bytes :=
  applyKeystream (encryptionKey derived) m ++ tagOf (authenticationKey derived) m

/-- The message of `c` and `t`, or AuthenticationFailure (R233, R235; 90_conflicts.md C6). -/
def openText (derived c t : Bytes) : Except Err Bytes :=
  let m := applyKeystream (encryptionKey derived) c
  if tagOf (authenticationKey derived) m ≠ t then .error .authenticationFailure else .ok m

/-! ### The functions of the commands -/

/-- The shared derivation of the public-key variant from W (R232, R233). -/
def derivePk (w : Point) : Bytes := kmacxof256 (xBytes w) [] 1024 customPK

/-- The derivation of the symmetric variant: nonce first, passphrase second (R234, R235). -/
def deriveSym (nonce pw : Bytes) : Bytes := kmacxof256 (nonce ++ pw) [] 1024 customS

/-- The public-key cryptogram `ptenc(Z) ‖ c ‖ t` (R232, R238). -/
def encryptPk (prm : Config.Params) (m : Bytes) (v : Point) (rnd : Bytes) : Bytes :=
  let k := timesCofactor prm.r (os2ip rnd)
  ptEnc (scalarMultiply prm.g k) ++ sealText (derivePk (scalarMultiply v k)) m

/-- The message of a public-key cryptogram of at least 176 bytes (R233). -/
def decryptPk (prm : Config.Params) (cg pw : Bytes) : Except Err Bytes :=
  let n := cg.length - (Config.ptBytes + Config.tagBytes)
  match ptDec (slice cg 0 Config.ptBytes) with
  | .error e => .error e
  | .ok z =>
    openText (derivePk (scalarMultiply z (privScalar prm.r pw)))
      (slice cg Config.ptBytes (Config.ptBytes + n))
      (slice cg (Config.ptBytes + n) (Config.ptBytes + n + Config.tagBytes))

/-- The symmetric cryptogram `z ‖ c ‖ t` (R234, R238). -/
def encryptSym (m pw nonce : Bytes) : Bytes := nonce ++ sealText (deriveSym nonce pw) m

/-- The message of a symmetric cryptogram of at least 128 bytes (R235). -/
def decryptSym (cg pw : Bytes) : Except Err Bytes :=
  let n := cg.length - (Config.nonceBytes + Config.tagBytes)
  openText (deriveSym (slice cg 0 Config.nonceBytes) pw)
    (slice cg Config.nonceBytes (Config.nonceBytes + n))
    (slice cg (Config.nonceBytes + n) (Config.nonceBytes + n + Config.tagBytes))

/-- The challenge `int(kmac(xbytes(U), m, 512, "T"))` (R236, R237). -/
def challenge (u : Point) (m : Bytes) : Nat := os2ip (kmacxof256 (xBytes u) m 512 customT)

/-- The signature `I2OSP(h, 64) ‖ I2OSP(z, 56)` (R236, R238). -/
def signMessage (prm : Config.Params) (m pw : Bytes) : Bytes :=
  let s := privScalar prm.r pw
  let k := timesCofactor prm.r (os2ip (kmacxof256 (i2osp s Config.sBytes) m 512 customN))
  let h := challenge (scalarMultiply prm.g k) m
  i2osp h Config.hBytes ++ i2osp (response prm.r k h s) Config.zBytes

/-- Whether a 120-byte signature is accepted (R237). -/
def verifySignature (prm : Config.Params) (sig m : Bytes) (v : Point) : Bool :=
  let h := os2ip (slice sig 0 Config.hBytes)
  let z := os2ip (slice sig Config.hBytes Config.sigBytes)
  challenge (ptAdd (scalarMultiply prm.g z) (scalarMultiply v h)) m == h

/-! ### The commands -/

/-- `KEYPAIR Kd, Pe, Ba` (R231). -/
def execKeypair (d e : Idx4) (a : Idx8) (s : State) : Out :=
  let scalar := privScalar s.params.r (s.readB a)
  commitS (.ok ((s.writeK d (BitVec.ofNat 512 scalar)).writeP e (scalarMultiply s.params.g scalar))) s

/-- `ENCPK Bd, Ba, Pb, Bc` (R232). -/
def execEncpk (d a : Idx8) (b : Idx4) (c : Idx8) (s : State) : Out :=
  let m := s.readB a
  commitS
    (if (s.readB c).length ≠ Config.rndBytes then .error .malformedInput
     else if s.params.bmax < Config.ptBytes + Config.tagBytes + m.length then .error .capacity
     else .ok (s.writeB d (encryptPk s.params m (s.readP b) (s.readB c)))) s

/-- `DECPK Bd, Ba, Bb` (R233). -/
def execDecpk (d a b : Idx8) (s : State) : Out :=
  commitS
    (if (s.readB a).length < Config.ptBytes + Config.tagBytes then .error .malformedInput
     else (decryptPk s.params (s.readB a) (s.readB b)).map fun m => s.writeB d m) s

/-- `ENCSYM Bd, Ba, Bb, Bc` (R234). -/
def execEncsym (d a b c : Idx8) (s : State) : Out :=
  let m := s.readB a
  commitS
    (if (s.readB c).length ≠ Config.nonceBytes then .error .malformedInput
     else if s.params.bmax < Config.nonceBytes + Config.tagBytes + m.length then .error .capacity
     else .ok (s.writeB d (encryptSym m (s.readB b) (s.readB c)))) s

/-- `DECSYM Bd, Ba, Bb` (R235). -/
def execDecsym (d a b : Idx8) (s : State) : Out :=
  commitS
    (if (s.readB a).length < Config.nonceBytes + Config.tagBytes then .error .malformedInput
     else (decryptSym (s.readB a) (s.readB b)).map fun m => s.writeB d m) s

/-- `SIGN Bd, Ba, Bb` (R236). -/
def execSign (d a b : Idx8) (s : State) : Out :=
  commitS (.ok (s.writeB d (signMessage s.params (s.readB a) (s.readB b)))) s

/-- `VERIFY Nd, Ba, Bb, Pc` (R237). A rejected signature is a result, not an error. -/
def execVerify (d a b : Idx8) (c : Idx4) (s : State) : Out :=
  commitS
    (if (s.readB a).length ≠ Config.sigBytes then .error .malformedInput
     else .ok (s.writeN d (if verifySignature s.params (s.readB a) (s.readB b) (s.readP c) then 1 else 0))) s

end Sys2Proof.Machine
end

