-- ==== Sys2Proof/Machine/Dispatch.lean ====
section
/-! DEFINITION. The one dispatch: each command's meaning (30_encoding.md R83, R89 steps 3 to 6). -/

namespace Sys2Proof.Machine

/-- What a command does to the state it was accepted in. -/
def exec (i : Instr) (s : State) : Host.Outcome State Fault Refusal :=
  match i with
  | .ald a => Sys2Proof.Machine.execAld a s
  | .ast d => Sys2Proof.Machine.execAst d s
  | .fld d a => Sys2Proof.Machine.execFld d a s
  | .fst d a => Sys2Proof.Machine.execFst d a s
  | .kld d a => Sys2Proof.Machine.execKld d a s
  | .kst d a => Sys2Proof.Machine.execKst d a s
  | .lenc d a => Sys2Proof.Machine.execLenc d a s
  | .renc d a => Sys2Proof.Machine.execRenc d a s
  | .encstr d a => Sys2Proof.Machine.execEncstr d a s
  | .bytepad d a b => Sys2Proof.Machine.execBytepad d a b s
  | .substr d a b c => Sys2Proof.Machine.execSubstr d a b c s
  | .kp => Sys2Proof.Machine.execKp s
  | .sponge d a b c => Sys2Proof.Machine.execSponge d a b c s
  | .shake d a b => Sys2Proof.Machine.execShake d a b s
  | .cshake d a b c e => Sys2Proof.Machine.execCshake d a b c e s
  | .kmac d a b c e => Sys2Proof.Machine.execKmac d a b c e s
  | .fadd d a b => Sys2Proof.Machine.execFadd d a b s
  | .fsub d a b => Sys2Proof.Machine.execFsub d a b s
  | .fmul d a b => Sys2Proof.Machine.execFmul d a b s
  | .finv d a => Sys2Proof.Machine.execFinv d a s
  | .fsqrt d a imm => Sys2Proof.Machine.execFsqrt d a imm s
  | .ptnew d a b => Sys2Proof.Machine.execPtnew d a b s
  | .ptfromx d a imm => Sys2Proof.Machine.execPtfromx d a imm s
  | .ptadd d a b => Sys2Proof.Machine.execPtadd d a b s
  | .ptmul d a b => Sys2Proof.Machine.execPtmul d a b s
  | .ptenc d a => Sys2Proof.Machine.execPtenc d a s
  | .ptdec d a => Sys2Proof.Machine.execPtdec d a s
  | .ptg d => Sys2Proof.Machine.execPtg d s
  | .keypair d e a => Sys2Proof.Machine.execKeypair d e a s
  | .encpk d a b c => Sys2Proof.Machine.execEncpk d a b c s
  | .decpk d a b => Sys2Proof.Machine.execDecpk d a b s
  | .encsym d a b c => Sys2Proof.Machine.execEncsym d a b c s
  | .decsym d a b => Sys2Proof.Machine.execDecsym d a b s
  | .sign d a b => Sys2Proof.Machine.execSign d a b s
  | .verify d a b c => Sys2Proof.Machine.execVerify d a b c s

end Sys2Proof.Machine
end

