-- ==== Sys2Proof/Machine/HostPort.lean ====
section
/-! DEFINITION. The host interface: the register map (20_memory.md R55 to R64), the busy rule
(70_reset_and_hazards.md R293), issuing a command (30_encoding.md R89), reset (70_reset_and_hazards.md R290), and the
host procedures (20_memory.md R68). -/

namespace Sys2Proof.Machine

/-- The registers of the host map (20_memory.md R55). -/
inductive HostReg where
  | cmd | status | bsel | bptr | blen | bdata | bmaxr
  /-- Offsets 0x1C to 0x3C (R62). -/
  | reserved
  /-- The low word of N[i], offset 0x40 + 8i (R61). -/
  | nLow (i : Idx8)
  /-- The high word of N[i], offset 0x44 + 8i (R61). -/
  | nHigh (i : Idx8)
deriving DecidableEq, Repr

/-- Which integer register an offset of the N window belongs to (20_memory.md R61). -/
def windowIndex (off : Nat) : Idx8 := ⟨(off - 0x40) / 8 % 8, by omega⟩

/-- The register at an aligned offset below 0x80 (20_memory.md R55, R61, R62). -/
def hostReg (off : Nat) : HostReg :=
  if off = 0x00 then .cmd
  else if off = 0x04 then .status
  else if off = 0x08 then .bsel
  else if off = 0x0C then .bptr
  else if off = 0x10 then .blen
  else if off = 0x14 then .bdata
  else if off = 0x18 then .bmaxr
  else if off < 0x40 then .reserved
  else if off % 8 = 0 then .nLow (windowIndex off)
  else .nHigh (windowIndex off)

/-- Why an access is refused: outside the engine (20_memory.md R62), or not a naturally aligned 32-bit access
(R63). Log 7. -/
def accessRefusal (off size : Nat) : Option Refusal :=
  if 0x80 ≤ off then some .outsideEngine
  else if size ≠ 4 ∨ off % 4 ≠ 0 then some .accessShape
  else none

/-- The buffer that BSEL selects (20_memory.md R57). -/
def selected (s : State) : Idx8 := s.bsel.toFin

/-- A read of BDATA while idle: the byte at BPTR, which then advances; 0 and no change at or past the end
(20_memory.md R60). -/
def readData (s : State) : Word × State :=
  match (s.readB (selected s))[s.bptr.toNat]? with
  | some byte => (byte.setWidth 32, { s with bptr := s.bptr + 1 })
  | none => (0, s)

/-- A host read of a register: the value, and the state after (20_memory.md R56 to R62, R64). While BUSY = 1, BLEN,
BDATA and the N window read 0 without side effect (70_reset_and_hazards.md R293). -/
def readReg (reg : HostReg) (s : State) : Word × State :=
  let busy := statusBusy s.status
  match reg with
  | .cmd => (s.cmd, s)
  | .status => (shownStatus s.status, s)
  | .bsel => (s.bsel.setWidth 32, s)
  | .bptr => (s.bptr, s)
  | .blen => (if busy then 0 else BitVec.ofNat 32 (s.readB (selected s)).length, s)
  | .bdata => if busy then (0, s) else readData s
  | .bmaxr => (BitVec.ofNat 32 s.params.bmax, s)
  | .reserved => (0, s)
  | .nLow i => (if busy then 0 else (s.readN i).extractLsb' 0 32, s)
  | .nHigh i => (if busy then 0 else (s.readN i).extractLsb' 32 32, s)

/-- A write of v to BSEL: bits 2:0, and BPTR <- 0 (20_memory.md R57). -/
def writeSel (v : Word) (s : State) : State := { s with bsel := v.extractLsb' 0 3, bptr := 0 }

/-- A write of v to BLEN: the selected buffer gets exactly v bytes, cut or extended with 00, and BPTR <- 0; ignored
where v > BMAX (20_memory.md R59). -/
def writeLen (v : Word) (s : State) : State :=
  let x := s.readB (selected s)
  if s.params.bmax < v.toNat then s
  else { s.writeB (selected s) (x.take v.toNat ++ zeros (v.toNat - x.length)) with bptr := 0 }

/-- A write of v to BDATA: overwrite at BPTR, append at the end where BMAX allows it, else ignored
(20_memory.md R60). -/
def writeData (v : Word) (s : State) : State :=
  let x := s.readB (selected s)
  let byte : Byte := v.extractLsb' 0 8
  if s.bptr.toNat < x.length then
    { s.writeB (selected s) (x.set s.bptr.toNat byte) with bptr := s.bptr + 1 }
  else if s.bptr.toNat = x.length ∧ x.length < s.params.bmax then
    { s.writeB (selected s) (x ++ [byte]) with bptr := s.bptr + 1 }
  else s

/-- A command word written to CMD while idle: accepted, decoded and executed in one step; a word that is no command
completes with ILLEGAL (30_encoding.md R84, R89). -/
def issue (w : Word) (s : State) : Out :=
  match decode w with
  | .ok i => exec i (accept w s)
  | .error _ => .next (raise .illegal (accept w s))

/-- A host write of v to a register. While BUSY = 1 every write is ignored (70_reset_and_hazards.md R293); writes to
BMAXR and to reserved offsets always are (20_memory.md R56, R62). -/
def writeReg (reg : HostReg) (v : Word) (s : State) : Out :=
  if statusBusy s.status then .next s
  else match reg with
  | .cmd => issue v s
  | .status => .next (acknowledge v s)
  | .bsel => .next (writeSel v s)
  | .bptr => .next { s with bptr := v }
  | .blen => .next (writeLen v s)
  | .bdata => .next (writeData v s)
  | .bmaxr => .next s
  | .reserved => .next s
  | .nLow i => .next (s.writeN i ((s.readN i).extractLsb' 32 32 ++ v))
  | .nHigh i => .next (s.writeN i (v ++ (s.readN i).extractLsb' 0 32))

/-- The platform's reset: every register takes its reset value (70_reset_and_hazards.md R290, R291). The parameters
are not affected, and what the host has issued or received lies outside the engine (Log 11). -/
def applyReset (s : State) : State :=
  { State.resetWith s.params with inputs := s.inputs, replies := s.replies }

/-- One input is performed (20_memory.md R65). -/
def perform (input : Input) (s : State) : Out :=
  match input with
  | .read off size =>
    match accessRefusal off size with
    | some why => .refused why
    | none =>
      let (v, t) := readReg (hostReg off) s
      .next { t with replies := t.replies ++ [v] }
  | .write off size v =>
    match accessRefusal off size with
    | some why => .refused why
    | none => writeReg (hostReg off) v s
  | .reset => .next (applyReset s)

/-- Inputs performed one after another, stopping at a refusal (20_memory.md R65). -/
def performAll : List Input → State → Out
  | [], s => .next s
  | input :: rest, s =>
    match perform input s with
    | .next t => performAll rest t
    | .fault why => .fault why
    | .refused why => .refused why

/-! ### The host procedures (20_memory.md R68) -/

/-- `HostLoad(i, X)`: the accesses in order. -/
def hostLoad (i : Idx8) (x : Bytes) : List Input :=
  .write 0x08 4 (BitVec.ofNat 32 i.val) :: .write 0x10 4 0 :: x.map fun byte => .write 0x14 4 (byte.setWidth 32)

/-- `HostSetN(i, v)`: the two writes. -/
def hostSetN (i : Idx8) (v : BitVec 64) : List Input :=
  [.write (0x40 + 8 * i.val) 4 (v.extractLsb' 0 32), .write (0x44 + 8 * i.val) 4 (v.extractLsb' 32 32)]

/-- `HostGetN(i)`: both halves read. -/
def hostGetN (i : Idx8) (s : State) : BitVec 64 :=
  (readReg (hostReg (0x44 + 8 * i.val)) s).1 ++ (readReg (hostReg (0x40 + 8 * i.val)) s).1

/-- n reads of BDATA, the low byte of each. -/
def readBytes : Nat → State → Bytes × State
  | 0, s => ([], s)
  | n + 1, s =>
    let (v, t) := readReg (hostReg 0x14) s
    let (rest, u) := readBytes n t
    (v.extractLsb' 0 8 :: rest, u)

/-- `HostStore(i)`: select buffer i, read its length n, then read n bytes. -/
def hostStore (i : Idx8) (s : State) : Option (Bytes × State) :=
  match writeReg (hostReg 0x08) (BitVec.ofNat 32 i.val) s with
  | .next t =>
    let (n, u) := readReg (hostReg 0x10) t
    some (readBytes n.toNat u)
  | _ => none

/-- At most `polls` reads of STATUS, until one shows BUSY = 0 and DONE = 1; the completion code it shows. -/
def pollStatus : Nat → State → Option (BitVec 4 × State)
  | 0, _ => none
  | polls + 1, s =>
    let (v, t) := readReg (hostReg 0x04) s
    if statusBusy v = false ∧ statusDone v = true then some (statusCode v, t) else pollStatus polls t

/-- `HostIssue(w)`: write the command word, then poll STATUS. The spec's loop has no bound; here `polls` bounds it,
and one poll always suffices since a command is one atomic step (Log 4). -/
def hostIssue (polls : Nat) (w : Word) (s : State) : Option (BitVec 4 × State) :=
  match writeReg (hostReg 0x00) w s with
  | .next t => pollStatus polls t
  | _ => none

end Sys2Proof.Machine
end

