-- ==== Sys2Proof/Machine/Step.lean ====
section
/-! DEFINITION. One step of engine and host: the oldest pending input is performed (20_memory.md R65). The engine has
no program counter and fetches nothing (10_state.md R33): what it runs next is the next word written to CMD. -/

namespace Sys2Proof.Machine

/-- The oldest pending input is performed; with none pending the engine is idle and holds its state
(70_reset_and_hazards.md R292, 60_exceptions.md R272). Log 2. -/
def step (s : State) : Out :=
  match s.inputs with
  | [] => .next s
  | input :: rest => perform input { s with inputs := rest }

/-- The state in which the very next step runs the command word of the low `nbits` bits of `w`: the host's write of
that word to CMD is the next input, and BUSY is 0, without which the write would be ignored
(70_reset_and_hazards.md R293). Log 2. -/
def State.withFetchWord (s : State) (nbits w : Nat) : State :=
  { s with
    inputs := .write 0x00 4 (BitVec.ofNat 32 (w % 2^nbits)) :: s.inputs
    status := s.status &&& ~~~1#32 }

end Sys2Proof.Machine
end

