-- ==== Sys2Proof/Safety.lean ====
section
/-! DEFINITION. What claims about the engine speak of: conforming parameters, the invariants of the registers, what
a completed and a failed command leave, which commands belong to class S and which write each register file. -/

namespace Sys2Proof.Machine

/-! ### Parameters (00_scope.md R11 to R13) -/

/-- The required properties of the parameters that do not speak of primality or of multiples of G: 512 ≤ BMAX < 2^31
(R13), 4 < r < 2^448 (R11), G on the curve (R12). -/
def ParamsOk (prm : Config.Params) : Prop :=
  512 ≤ prm.bmax ∧ prm.bmax < 2^31 ∧ 4 < prm.r ∧ prm.r < 2^448 ∧ onCurve prm.g = true

/-- All required properties of the parameters (R11 to R13): also r prime, G ≠ O and r·G = O. -/
def ParamsConforming (prm : Config.Params) : Prop :=
  ParamsOk prm ∧ Nat.Prime prm.r ∧ prm.g ≠ Config.neutral ∧ scalarMultiply prm.g prm.r = Config.neutral

/-! ### Invariants of the registers -/

/-- STATUS shows a legal idle engine: BUSY = 0, reserved bits 0, CODE one of 0 to 7 (10_state.md R30,
60_exceptions.md R261). -/
def StatusIdle (st : Word) : Prop :=
  statusBusy st = false ∧ shownStatus st = st ∧ (statusCode st).toNat ≤ 7

/-- Every buffer within BMAX, STATUS legal and idle, the parameters in their ranges (10_state.md R23, R30). -/
def Tidy (s : State) : Prop :=
  Memory.wf s.params.bmax s.b = true ∧ StatusIdle s.status ∧ ParamsOk s.params

/-- Every point register on the curve (10_state.md R26), and G too. -/
def PointsOnCurve (s : State) : Prop :=
  (∀ i, onCurve (s.readP i) = true) ∧ onCurve s.params.g = true

/-! ### Outcomes of a command -/

/-- STATUS after a command that completed with OK (30_encoding.md R89 step 6): ESTK as before. -/
def CompletedOk (s t : State) : Prop :=
  statusBusy t.status = false ∧ statusDone t.status = true ∧ statusCode t.status = okCode ∧
    statusEstk t.status = statusEstk s.status ∧ shownStatus t.status = t.status

/-- STATUS after a command that failed with e (60_exceptions.md R262). -/
def FailedWith (e : Err) (s t : State) : Prop :=
  t = { s with a := t.a, status := t.status } ∧ statusBusy t.status = false ∧ statusDone t.status = true ∧
    statusCode t.status = errCode e ∧ statusEstk t.status = true ∧ shownStatus t.status = t.status

/-- Class S: the commands that run the sponge (10_state.md R28). -/
def classS : Instr → Bool
  | .sponge _ _ _ _ | .shake _ _ _ | .cshake _ _ _ _ _ | .kmac _ _ _ _ _ | .keypair _ _ _ | .encpk _ _ _ _
  | .decpk _ _ _ | .encsym _ _ _ _ | .decsym _ _ _ | .sign _ _ _ | .verify _ _ _ _ => true
  | .ald _ | .ast _ | .fld _ _ | .fst _ _ | .kld _ _ | .kst _ _ | .lenc _ _ | .renc _ _ | .encstr _ _
  | .bytepad _ _ _ | .substr _ _ _ _ | .kp | .fadd _ _ _ | .fsub _ _ _ | .fmul _ _ _ | .finv _ _ | .fsqrt _ _ _
  | .ptnew _ _ _ | .ptfromx _ _ _ | .ptadd _ _ _ | .ptmul _ _ _ | .ptenc _ _ | .ptdec _ _ | .ptg _ => false

/-- The command `i` fails with e: no register changes but STATUS, and A, which class S clears (60_exceptions.md R262,
10_state.md R28). -/
def Fails (i : Instr) (s : State) (e : Err) : Prop :=
  ∃ t, exec i s = .next t ∧ FailedWith e s t ∧ t.a = if classS i then zeroLanes else s.a

/-! ### The register a command names as its destination, by file -/

/-- The B register the command writes, if any (30_encoding.md R83). -/
def destB : Instr → Option Idx8
  | .ast d | .fst d _ | .kst d _ | .lenc d _ | .renc d _ | .encstr d _ | .bytepad d _ _ | .substr d _ _ _
  | .sponge d _ _ _ | .shake d _ _ | .cshake d _ _ _ _ | .kmac d _ _ _ _ | .ptenc d _ | .encpk d _ _ _
  | .decpk d _ _ | .encsym d _ _ _ | .decsym d _ _ | .sign d _ _ => some d
  | .ald _ | .fld _ _ | .kld _ _ | .kp | .fadd _ _ _ | .fsub _ _ _ | .fmul _ _ _ | .finv _ _ | .fsqrt _ _ _
  | .ptnew _ _ _ | .ptfromx _ _ _ | .ptadd _ _ _ | .ptmul _ _ _ | .ptdec _ _ | .ptg _ | .keypair _ _ _
  | .verify _ _ _ _ => none

/-- The N register the command writes: VERIFY only (10_state.md R21). -/
def destN : Instr → Option Idx8
  | .verify d _ _ _ => some d
  | .ald _ | .ast _ | .fld _ _ | .fst _ _ | .kld _ _ | .kst _ _ | .lenc _ _ | .renc _ _ | .encstr _ _
  | .bytepad _ _ _ | .substr _ _ _ _ | .kp | .sponge _ _ _ _ | .shake _ _ _ | .cshake _ _ _ _ _ | .kmac _ _ _ _ _
  | .fadd _ _ _ | .fsub _ _ _ | .fmul _ _ _ | .finv _ _ | .fsqrt _ _ _ | .ptnew _ _ _ | .ptfromx _ _ _
  | .ptadd _ _ _ | .ptmul _ _ _ | .ptenc _ _ | .ptdec _ _ | .ptg _ | .keypair _ _ _ | .encpk _ _ _ _
  | .decpk _ _ _ | .encsym _ _ _ _ | .decsym _ _ _ | .sign _ _ _ => none

/-- The F register the command writes (10_state.md R25). -/
def destF : Instr → Option Idx8
  | .fld d _ | .fadd d _ _ | .fsub d _ _ | .fmul d _ _ | .finv d _ | .fsqrt d _ _ => some d
  | .ald _ | .ast _ | .fst _ _ | .kld _ _ | .kst _ _ | .lenc _ _ | .renc _ _ | .encstr _ _ | .bytepad _ _ _
  | .substr _ _ _ _ | .kp | .sponge _ _ _ _ | .shake _ _ _ | .cshake _ _ _ _ _ | .kmac _ _ _ _ _ | .ptnew _ _ _
  | .ptfromx _ _ _ | .ptadd _ _ _ | .ptmul _ _ _ | .ptenc _ _ | .ptdec _ _ | .ptg _ | .keypair _ _ _
  | .encpk _ _ _ _ | .decpk _ _ _ | .encsym _ _ _ _ | .decsym _ _ _ | .sign _ _ _ | .verify _ _ _ _ => none

/-- The P register the command writes (10_state.md R26). -/
def destP : Instr → Option Idx4
  | .ptnew d _ _ | .ptfromx d _ _ | .ptadd d _ _ | .ptmul d _ _ | .ptdec d _ | .ptg d => some d
  | .keypair _ e _ => some e
  | .ald _ | .ast _ | .fld _ _ | .fst _ _ | .kld _ _ | .kst _ _ | .lenc _ _ | .renc _ _ | .encstr _ _
  | .bytepad _ _ _ | .substr _ _ _ _ | .kp | .sponge _ _ _ _ | .shake _ _ _ | .cshake _ _ _ _ _ | .kmac _ _ _ _ _
  | .fadd _ _ _ | .fsub _ _ _ | .fmul _ _ _ | .finv _ _ | .fsqrt _ _ _ | .ptenc _ _ | .encpk _ _ _ _
  | .decpk _ _ _ | .encsym _ _ _ _ | .decsym _ _ _ | .sign _ _ _ | .verify _ _ _ _ => none

/-- The K register the command writes (10_state.md R27). -/
def destK : Instr → Option Idx4
  | .kld d _ | .keypair d _ _ => some d
  | .ald _ | .ast _ | .fld _ _ | .fst _ _ | .kst _ _ | .lenc _ _ | .renc _ _ | .encstr _ _ | .bytepad _ _ _
  | .substr _ _ _ _ | .kp | .sponge _ _ _ _ | .shake _ _ _ | .cshake _ _ _ _ _ | .kmac _ _ _ _ _ | .fadd _ _ _
  | .fsub _ _ _ | .fmul _ _ _ | .finv _ _ | .fsqrt _ _ _ | .ptnew _ _ _ | .ptfromx _ _ _ | .ptadd _ _ _
  | .ptmul _ _ _ | .ptenc _ _ | .ptdec _ _ | .ptg _ | .encpk _ _ _ _ | .decpk _ _ _ | .encsym _ _ _ _
  | .decsym _ _ _ | .sign _ _ _ | .verify _ _ _ _ => none

/-- A write to A: KP, ALD and class S (10_state.md R24). -/
def writesA (i : Instr) : Bool :=
  match i with
  | .kp | .ald _ => true
  | .sponge _ _ _ _ | .shake _ _ _ | .cshake _ _ _ _ _ | .kmac _ _ _ _ _ | .keypair _ _ _ | .encpk _ _ _ _
  | .decpk _ _ _ | .encsym _ _ _ _ | .decsym _ _ _ | .sign _ _ _ | .verify _ _ _ _ => true
  | .ast _ | .fld _ _ | .fst _ _ | .kld _ _ | .kst _ _ | .lenc _ _ | .renc _ _ | .encstr _ _
  | .bytepad _ _ _ | .substr _ _ _ _ | .fadd _ _ _ | .fsub _ _ _ | .fmul _ _ _ | .finv _ _ | .fsqrt _ _ _
  | .ptnew _ _ _ | .ptfromx _ _ _ | .ptadd _ _ _ | .ptmul _ _ _ | .ptenc _ _ | .ptdec _ _ | .ptg _ => false

/-! ### The codes a command can end with, and the register files it reads -/

/-- The errors a command can raise (the last column of the table of 60_exceptions.md R261). -/
def canRaise : Instr → List Err
  | .lenc _ _ | .renc _ _ | .finv _ _ => [.domainError]
  | .bytepad _ _ _ | .sponge _ _ _ _ | .shake _ _ _ | .cshake _ _ _ _ _ | .kmac _ _ _ _ _ => [.domainError, .capacity]
  | .ald _ | .fld _ _ | .kld _ _ | .verify _ _ _ _ => [.malformedInput]
  | .ptdec _ _ => [.malformedInput, .invalidPoint]
  | .encpk _ _ _ _ | .encsym _ _ _ _ => [.malformedInput, .capacity]
  | .decpk _ _ _ => [.malformedInput, .invalidPoint, .authenticationFailure]
  | .decsym _ _ _ => [.malformedInput, .authenticationFailure]
  | .ptnew _ _ _ => [.invalidPoint]
  | .fsqrt _ _ _ | .ptfromx _ _ _ => [.noSquareRoot]
  | .encstr _ _ => [.capacity]
  | .ast _ | .fst _ _ | .kst _ _ | .substr _ _ _ _ | .kp | .fadd _ _ _ | .fsub _ _ _ | .fmul _ _ _ | .ptadd _ _ _
  | .ptmul _ _ _ | .ptenc _ _ | .ptg _ | .keypair _ _ _ | .sign _ _ _ => []

/-- The commands that read N (10_state.md R21). -/
def readsN : Instr → Bool
  | .bytepad _ _ _ | .substr _ _ _ _ | .sponge _ _ _ _ | .shake _ _ _ | .cshake _ _ _ _ _ | .kmac _ _ _ _ _ => true
  | .ald _ | .ast _ | .fld _ _ | .fst _ _ | .kld _ _ | .kst _ _ | .lenc _ _ | .renc _ _ | .encstr _ _ | .kp
  | .fadd _ _ _ | .fsub _ _ _ | .fmul _ _ _ | .finv _ _ | .fsqrt _ _ _ | .ptnew _ _ _ | .ptfromx _ _ _
  | .ptadd _ _ _ | .ptmul _ _ _ | .ptenc _ _ | .ptdec _ _ | .ptg _ | .keypair _ _ _ | .encpk _ _ _ _
  | .decpk _ _ _ | .encsym _ _ _ _ | .decsym _ _ _ | .sign _ _ _ | .verify _ _ _ _ => false

/-- The commands that read A: AST into host-visible state, KP into A (10_state.md R24). -/
def readsA : Instr → Bool
  | .ast _ | .kp => true
  | .ald _ | .fld _ _ | .fst _ _ | .kld _ _ | .kst _ _ | .lenc _ _ | .renc _ _ | .encstr _ _ | .bytepad _ _ _
  | .substr _ _ _ _ | .sponge _ _ _ _ | .shake _ _ _ | .cshake _ _ _ _ _ | .kmac _ _ _ _ _ | .fadd _ _ _
  | .fsub _ _ _ | .fmul _ _ _ | .finv _ _ | .fsqrt _ _ _ | .ptnew _ _ _ | .ptfromx _ _ _ | .ptadd _ _ _
  | .ptmul _ _ _ | .ptenc _ _ | .ptdec _ _ | .ptg _ | .keypair _ _ _ | .encpk _ _ _ _ | .decpk _ _ _
  | .encsym _ _ _ _ | .decsym _ _ _ | .sign _ _ _ | .verify _ _ _ _ => false

/-- The commands that read F (10_state.md R25). -/
def readsF : Instr → Bool
  | .fst _ _ | .fadd _ _ _ | .fsub _ _ _ | .fmul _ _ _ | .finv _ _ | .fsqrt _ _ _ | .ptnew _ _ _
  | .ptfromx _ _ _ => true
  | .ald _ | .ast _ | .fld _ _ | .kld _ _ | .kst _ _ | .lenc _ _ | .renc _ _ | .encstr _ _ | .bytepad _ _ _
  | .substr _ _ _ _ | .kp | .sponge _ _ _ _ | .shake _ _ _ | .cshake _ _ _ _ _ | .kmac _ _ _ _ _ | .ptadd _ _ _
  | .ptmul _ _ _ | .ptenc _ _ | .ptdec _ _ | .ptg _ | .keypair _ _ _ | .encpk _ _ _ _ | .decpk _ _ _
  | .encsym _ _ _ _ | .decsym _ _ _ | .sign _ _ _ | .verify _ _ _ _ => false

/-- The commands that read P (10_state.md R26). -/
def readsP : Instr → Bool
  | .ptadd _ _ _ | .ptmul _ _ _ | .ptenc _ _ | .encpk _ _ _ _ | .verify _ _ _ _ => true
  | .ald _ | .ast _ | .fld _ _ | .fst _ _ | .kld _ _ | .kst _ _ | .lenc _ _ | .renc _ _ | .encstr _ _
  | .bytepad _ _ _ | .substr _ _ _ _ | .kp | .sponge _ _ _ _ | .shake _ _ _ | .cshake _ _ _ _ _ | .kmac _ _ _ _ _
  | .fadd _ _ _ | .fsub _ _ _ | .fmul _ _ _ | .finv _ _ | .fsqrt _ _ _ | .ptnew _ _ _ | .ptfromx _ _ _
  | .ptdec _ _ | .ptg _ | .keypair _ _ _ | .decpk _ _ _ | .encsym _ _ _ _ | .decsym _ _ _ | .sign _ _ _ => false

/-- The commands that read K (10_state.md R27). -/
def readsK : Instr → Bool
  | .kst _ _ | .ptmul _ _ _ => true
  | .ald _ | .ast _ | .fld _ _ | .fst _ _ | .kld _ _ | .lenc _ _ | .renc _ _ | .encstr _ _ | .bytepad _ _ _
  | .substr _ _ _ _ | .kp | .sponge _ _ _ _ | .shake _ _ _ | .cshake _ _ _ _ _ | .kmac _ _ _ _ _ | .fadd _ _ _
  | .fsub _ _ _ | .fmul _ _ _ | .finv _ _ | .fsqrt _ _ _ | .ptnew _ _ _ | .ptfromx _ _ _ | .ptadd _ _ _
  | .ptenc _ _ | .ptdec _ _ | .ptg _ | .keypair _ _ _ | .encpk _ _ _ _ | .decpk _ _ _ | .encsym _ _ _ _
  | .decsym _ _ _ | .sign _ _ _ | .verify _ _ _ _ => false

/-! ### Frames: what one destination's write leaves unchanged -/

/-- Buffer d now holds x; every byte of every other buffer, and every register but STATUS, is unchanged. -/
def WroteB (d : Idx8) (x : Bytes) (s t : State) : Prop :=
  t = { s with b := t.b, status := t.status } ∧ t.readB d = x ∧
    ∀ j m, j ≠ d → t.byteAt j m = s.byteAt j m

/-- As `WroteB`, for a class-S command: A is 0 (10_state.md R28). -/
def WroteBS (d : Idx8) (x : Bytes) (s t : State) : Prop :=
  t = { s with a := zeroLanes, b := t.b, status := t.status } ∧ t.readB d = x ∧
    ∀ j m, j ≠ d → t.byteAt j m = s.byteAt j m

/-- Field register d now holds the integer v; every other register but STATUS, and every byte, is unchanged. -/
def WroteF (d : Idx8) (v : Nat) (s t : State) : Prop :=
  t = { s with f := t.f, status := t.status } ∧ (t.readF d).val = v ∧ ∀ j, j ≠ d → t.readF j = s.readF j

/-- Point register d now holds q; every other register but STATUS, and every byte, is unchanged. -/
def WroteP (d : Idx4) (q : Point) (s t : State) : Prop :=
  t = { s with p := t.p, status := t.status } ∧ t.readP d = q ∧ ∀ j, j ≠ d → t.readP j = s.readP j

/-- Integer register d now holds v and A is 0; every other register but STATUS, and every byte, is unchanged. -/
def WroteNS (d : Idx8) (v : BitVec 64) (s t : State) : Prop :=
  t = { s with a := zeroLanes, n := t.n, status := t.status } ∧ t.readN d = v ∧ ∀ j, j ≠ d → t.readN j = s.readN j

/-- Scalar register d now holds the integer v; every other register but STATUS, and every byte, is unchanged. -/
def WroteK (d : Idx4) (v : Nat) (s t : State) : Prop :=
  t = { s with k := t.k, status := t.status } ∧ (t.readK d).toNat = v ∧ ∀ j, j ≠ d → t.readK j = s.readK j

/-! ### Accesses -/

/-- A defined host access: naturally aligned, 32 bits, inside the map (20_memory.md R62, R63). -/
def Input.defined : Input → Bool
  | .read off size => off < 0x80 && size == 4 && off % 4 == 0
  | .write off size _ => off < 0x80 && size == 4 && off % 4 == 0
  | .reset => true

/-- A left encoding of x: one length byte n, then the n bytes, n ≥ 1 least, of the big-endian x (40_bitencoding.md
R100). -/
def IsLeftEncoding (x : Nat) (y : Bytes) : Prop :=
  ∃ n body, y = n :: body ∧ body.length = n.toNat ∧ 1 ≤ n.toNat ∧ os2ip body = x ∧
    (n.toNat = 1 ∨ 256 ^ (n.toNat - 1) ≤ x)

/-- A right encoding of x: as a left encoding, the length byte last (40_bitencoding.md R100). -/
def IsRightEncoding (x : Nat) (y : Bytes) : Prop :=
  ∃ n body, y = body ++ [n] ∧ body.length = n.toNat ∧ 1 ≤ n.toNat ∧ os2ip body = x ∧
    (n.toNat = 1 ∨ 256 ^ (n.toNat - 1) ≤ x)

/-! ### The generating rules of the Keccak tables (41_keccak.md R122, R124) -/

/-- The orbit of (x, y) = (1, 0) under (x, y) <- (y, 2x + 3y) modulo 5 (R122). -/
def rhoWalk : Nat → Nat × Nat
  | 0 => (1, 0)
  | t + 1 => ((rhoWalk t).2, (2 * (rhoWalk t).1 + 3 * (rhoWalk t).2) % 5)

/-- The 8-bit linear-feedback shift register with polynomial x^8 + x^6 + x^5 + x^4 + 1, started at 1 (R124): the
residue of x^t, bit i the coefficient of x^i. -/
def lfsr : Nat → BitVec 8
  | 0 => 1
  | t + 1 => (lfsr t <<< 1) ^^^ (if (lfsr t).getLsbD 7 then 0x71 else 0)

/-- The parity of column x (R121). -/
def parityOf (a : Lanes) (x : Nat) : Lane := lane a x 0 ^^^ lane a x 1 ^^^ lane a x 2 ^^^ lane a x 3 ^^^ lane a x 4

/-! ### Agreement of two states -/

/-- The architectural registers other than CMD and STATUS, and the parameters, are the same. -/
def SameRegisters (s t : State) : Prop :=
  s.n = t.n ∧ s.b = t.b ∧ s.a = t.a ∧ s.f = t.f ∧ s.p = t.p ∧ s.k = t.k ∧ s.params = t.params

end Sys2Proof.Machine
end

