-- ==== Sys2Proof/Certificates/Slice0/Obligations.lean ====
section
/-! DEFINITION. The statements for the provers. Each says in its docstring which rule of spec/ it formalises. `s` is
the state a command is executed in (after `accept`), `t` the state it leaves; `CompletedOk`, `WroteB` and the like say
the completion and the frame, `Fails` that the command ends with an error and changes nothing else. -/

open Sys2Proof Sys2Proof.Machine

/-! ### Stepping and decoding -/

/-- A step performs the oldest input (20_memory.md R65), and with none pending holds the state (60_exceptions.md R272);
a command word written to CMD while BUSY = 0 is accepted (CMD <- w, BUSY <- 1, DONE <- 0, ESTK and CODE kept) and the
decoded command is executed in the same step (30_encoding.md R89); `withFetchWord` makes that write the next input. The
queue of inputs is the model's own (Log 2). -/
def Obligations.StepRunsTheDecodedCommand : Prop :=
  (∀ s, s.inputs = [] → step s = .next s) ∧
  (∀ s input rest, s.inputs = input :: rest → step s = perform input { s with inputs := rest }) ∧
  (∀ s w rest i, s.inputs = .write 0x00 4 w :: rest → statusBusy s.status = false → decode w = .ok i →
    step s = exec i (accept w { s with inputs := rest })) ∧
  (∀ (s : State) w i, decode w = .ok i →
    step (s.withFetchWord 32 w.toNat) = exec i (accept w { s with status := s.status &&& ~~~1#32 })) ∧
  (∀ s w, accept w s = { s with cmd := w, status := (accept w s).status } ∧
    statusBusy (accept w s).status = true ∧ statusDone (accept w s).status = false ∧
    statusEstk (accept w s).status = statusEstk s.status ∧ statusCode (accept w s).status = statusCode s.status)

/-- A word is illegal exactly when no row of the opcode table selects it; written to CMD while BUSY = 0 it completes
with ILLEGAL: CMD holds the word, DONE = 1, ESTK = 1, CODE = 1, BUSY = 0, and nothing else changes, not even A
(30_encoding.md R84, R89). -/
def Obligations.IllegalWordCompletesWithIllegal : Prop :=
  (∀ w, (∃ why, decode w = .error why) ↔ ∀ row ∈ opcodeRows, row.selects w = false) ∧
  (∀ s w rest why, s.inputs = .write 0x00 4 w :: rest → statusBusy s.status = false → decode w = .error why →
    step s = .next { s with inputs := rest, cmd := w, status := mkStatus false true true 1 })

/-- The decoder accepts a word exactly when one row of the opcode table selects it, and never two rows do
(30_encoding.md R83, R85). -/
def Obligations.DecodeAcceptsExactlyTheTable : Prop :=
  ∀ w, (opcodeRows.filter fun row => row.selects w).length = if (decode w).isOk then 1 else 0

/-- Decoding the encoding of a well-formed command gives the command back, for every command and every operand; and a
word that decodes is the encoding of the well-formed command it decodes to (30_encoding.md R81 to R87). -/
def Obligations.DecodeAndEncodeAgree : Prop :=
  (∀ i : Instr, i.wellFormed = true → decode (encode i) = .ok i) ∧
  (∀ w i, decode w = .ok i → i.wellFormed = true ∧ encode i = w)

/-- Words written out from the examples of 30_encoding.md R87 and the patterns of R83 decode to their commands, and
0x00000000 and 0xFFFFFFFF are illegal (R84, R29). -/
def Obligations.WrittenWordsDecode : Prop :=
  decode 0x30301020 = .ok (.kmac 3 0 1 0 2) ∧ decode 0x60020010 = .ok (.keypair 0 1 2) ∧
  decode 0x44100001 = .ok (.fsqrt 1 0 1) ∧ decode 0x20000000 = .ok .kp ∧
  decode 0b00000001000001110000000000000000 = .ok (.ald 7) ∧
  decode 0b00010100010100110111000100000000 = .ok (.substr 5 3 7 1) ∧
  decode 0b01010011001100100001000000000000 = .ok (.ptmul 3 2 1) ∧
  decode 0b01100110011001010100001100000000 = .ok (.verify 6 5 4 3) ∧
  decode 0x00000000 = .error .unlistedOpcode ∧ decode 0xFFFFFFFF = .error .unlistedOpcode

/-! ### Invariants -/

/-- After reset every register has the value of 10_state.md R36, from power-on (`State.reset`) and when the platform
applies reset in any state. -/
def Obligations.ResetGivesEveryRegisterItsValue : Prop :=
  ∀ t, (t = State.reset ∨ ∃ s, perform .reset s = .next t) →
    (∀ i, t.readN i = 0) ∧ (∀ i, (t.readB i).length = 0) ∧ (∀ i : Fin 25, t.a[i] = 0) ∧
    (∀ i, (t.readF i).val = 0) ∧ (∀ i, (t.readP i).x.val = 0 ∧ (t.readP i).y.val = 1) ∧
    (∀ i, (t.readK i).toNat = 0) ∧ t.cmd = 0 ∧ t.status = 0 ∧ statusBusy t.status = false ∧
    statusDone t.status = false ∧ statusEstk t.status = false ∧ statusCode t.status = 0 ∧ t.bsel = 0 ∧ t.bptr = 0

/-- The reset state, and the state after a reset applied anywhere, meet the two invariants of the next statements; a
reset does not affect the parameters (70_reset_and_hazards.md R291). The default parameters' values of r and G are
PRESUMED (Log 1). -/
def Obligations.ResetStateMeetsTheInvariants : Prop :=
  Tidy State.reset ∧ PointsOnCurve State.reset ∧
  (∀ s t, perform .reset s = .next t → t.params = s.params) ∧
  (∀ s t, perform .reset s = .next t → ParamsOk s.params → Tidy t ∧ PointsOnCurve t)

/-- Every step keeps every buffer within BMAX (10_state.md R23), STATUS a legal value of an idle engine (reserved bits
0, CODE 0 to 7; R30, 60_exceptions.md R261), and the parameters (R20) in their ranges. -/
def Obligations.StepKeepsTidy : Prop :=
  ∀ s t, Tidy s → step s = .next t → Tidy t ∧ t.params = s.params

/-- Every step keeps every point register on the curve (10_state.md R26): no command writes a pair that fails the
equation. For PTADD and PTMUL this is the completeness of the addition law (45_point.md R204). -/
def Obligations.StepKeepsPointsOnCurve : Prop :=
  ∀ s t, PointsOnCurve s → step s = .next t → PointsOnCurve t

/-! ### Rules over all commands -/

/-- Every command, in every state, completes: BUSY = 0, DONE = 1, the reserved bits 0, and CODE is OK with ESTK kept,
or one of the errors that the table of 60_exceptions.md R261 lists for the command, with ESTK set. -/
def Obligations.EveryCommandCompletesWithAListedCode : Prop :=
  ∀ i s, ∃ t, exec i s = .next t ∧ statusBusy t.status = false ∧ statusDone t.status = true ∧
    shownStatus t.status = t.status ∧
    ((statusCode t.status = okCode ∧ statusEstk t.status = statusEstk s.status) ∨
      ∃ e ∈ canRaise i, statusCode t.status = errCode e ∧ statusEstk t.status = true)

/-- What a failed command leaves (60_exceptions.md R262), an illegal word included: every register as before, A too but
for class S, where A is 0; STATUS has BUSY = 0, DONE = 1, ESTK = 1 and the code; CMD holds the word. -/
def Obligations.FailedCommandChangesNothingElse : Prop :=
  ∀ s w rest t, s.inputs = .write 0x00 4 w :: rest → statusBusy s.status = false → step s = .next t →
    statusCode t.status ≠ okCode →
    ∃ e, t = { s with
      inputs := rest
      cmd := w
      a := match decode w with
        | .ok i => if classS i then zeroLanes else s.a
        | .error _ => s.a
      status := mkStatus false true true (errCode e) }

/-- A class-S command leaves A[i] = 0 for all i, whatever its code; an illegal word leaves A (10_state.md R28). -/
def Obligations.ClassSLeavesSpongeStateZero : Prop :=
  (∀ i s, classS i = true → ∃ t, exec i s = .next t ∧ ∀ j : Fin 25, t.a[j] = 0) ∧
  (∀ s w why, decode w = .error why → ∃ t, issue w s = .next t ∧ t.a = s.a)

/-- The frame of every command, by register file: a register other than the destination is unchanged, every byte of
every buffer other than the destination's is unchanged, A is unchanged unless the command is KP, ALD or of class S;
CMD, BSEL, BPTR, the parameters and the host's queues never change (10_state.md R21 to R31, 20_memory.md R58). -/
def Obligations.OnlyTheDestinationChanges : Prop :=
  ∀ i s t, exec i s = .next t →
    (∀ j, destN i ≠ some j → t.readN j = s.readN j) ∧
    (∀ j m, destB i ≠ some j → t.byteAt j m = s.byteAt j m) ∧
    (∀ j, destF i ≠ some j → t.readF j = s.readF j) ∧
    (∀ j, destP i ≠ some j → t.readP j = s.readP j) ∧
    (∀ j, destK i ≠ some j → t.readK j = s.readK j) ∧
    (writesA i = false → t.a = s.a) ∧
    t.cmd = s.cmd ∧ t.bsel = s.bsel ∧ t.bptr = s.bptr ∧ t.params = s.params ∧ t.inputs = s.inputs ∧
    t.replies = s.replies

/-- A command executes the same whatever CMD, STATUS, BSEL and BPTR are and whatever the host has queued
(10_state.md R31, R34): from states with the same registers it leaves the same registers and the same code. -/
def Obligations.CommandIgnoresStatusAndHostState : Prop :=
  ∀ i s t, SameRegisters s t →
    ∃ s' t', exec i s = .next s' ∧ exec i t = .next t' ∧ SameRegisters s' t' ∧
      statusCode s'.status = statusCode t'.status

/-- A register file that a command is not listed as reading does not affect what the command does to the rest of the
state (10_state.md R21, R24 to R27). In particular only AST carries A into host-visible state, and only KST and PTMUL
carry a scalar. -/
def Obligations.RegistersAreReadOnlyByTheirCommands : Prop :=
  ∀ i s t, exec i s = .next t →
    (∀ v, readsN i = false → ∃ u, exec i { s with n := v } = .next { t with n := u }) ∧
    (∀ v, readsA i = false → ∃ u, exec i { s with a := v } = .next { t with a := u }) ∧
    (∀ v, readsF i = false → ∃ u, exec i { s with f := v } = .next { t with f := u }) ∧
    (∀ v, readsP i = false → ∃ u, exec i { s with p := v } = .next { t with p := u }) ∧
    (∀ v, readsK i = false → ∃ u, exec i { s with k := v } = .next { t with k := u })

/-! ### BitEncoding -/

/-- LENC and RENC (40_bitencoding.md R101, R102): below 2^2040 the one left and the one right encoding of the buffer's
big-endian integer, else DomainError. -/
def Obligations.LencAndRencEncodeTheInteger : Prop :=
  ∀ (d a : Idx8) (s : State),
    decode (assemble 0x10 d.val a.val 0 0 0 0) = .ok (.lenc d a) ∧
    decode (assemble 0x11 d.val a.val 0 0 0 0) = .ok (.renc d a) ∧
    (os2ip (s.readB a) < 2 ^ 2040 →
      (∃ t y, exec (.lenc d a) s = .next t ∧ CompletedOk s t ∧ WroteB d y s t ∧ y.length ≤ 256 ∧
        IsLeftEncoding (os2ip (s.readB a)) y) ∧
      (∃ t y, exec (.renc d a) s = .next t ∧ CompletedOk s t ∧ WroteB d y s t ∧ y.length ≤ 256 ∧
        IsRightEncoding (os2ip (s.readB a)) y)) ∧
    (2 ^ 2040 ≤ os2ip (s.readB a) → Fails (.lenc d a) s .domainError ∧ Fails (.renc d a) s .domainError)

/-- ENCSTR (40_bitencoding.md R103): the left encoding of the bit length, then the string; CAPACITY when that is longer
than BMAX. For buffers within a conforming BMAX (10_state.md R23, 00_scope.md R13). -/
def Obligations.EncstrPrefixesTheBitLength : Prop :=
  ∀ (d a : Idx8) (s : State), s.params.bmax < 2 ^ 31 → (s.readB a).length ≤ s.params.bmax →
    decode (assemble 0x12 d.val a.val 0 0 0 0) = .ok (.encstr d a) ∧
    ∃ enc, IsLeftEncoding (8 * (s.readB a).length) enc ∧
      if s.params.bmax < enc.length + (s.readB a).length then Fails (.encstr d a) s .capacity
      else ∃ t, exec (.encstr d a) s = .next t ∧ CompletedOk s t ∧ WroteB d (enc ++ s.readB a) s t

/-- BYTEPAD (40_bitencoding.md R104): DomainError for w = 0; else z = left_encode(w) ‖ X followed by the least number of
zero bytes that reaches a multiple of w, CAPACITY when that is longer than BMAX. -/
def Obligations.BytepadPadsToAMultiple : Prop :=
  ∀ (d a b : Idx8) (s : State),
    decode (assemble 0x13 d.val a.val b.val 0 0 0) = .ok (.bytepad d a b) ∧
    if (s.readN b).toNat = 0 then Fails (.bytepad d a b) s .domainError
    else ∃ enc pad, IsLeftEncoding (s.readN b).toNat enc ∧ pad < (s.readN b).toNat ∧
      (s.readN b).toNat ∣ enc.length + (s.readB a).length + pad ∧
      if s.params.bmax < enc.length + (s.readB a).length + pad then Fails (.bytepad d a b) s .capacity
      else ∃ t, exec (.bytepad d a b) s = .next t ∧ CompletedOk s t ∧ WroteB d (enc ++ s.readB a ++ zeros pad) s t

/-- SUBSTR (40_bitencoding.md R105): empty if lo ≥ hi or lo ≥ len(X), else the bytes lo up to min(hi, len(X)); byte j
of the result is byte lo + j of X. -/
def Obligations.SubstrClampsToTheLength : Prop :=
  ∀ (d a b c : Idx8) (s : State),
    decode (assemble 0x14 d.val a.val b.val c.val 0 0) = .ok (.substr d a b c) ∧
    ∃ t y, exec (.substr d a b c) s = .next t ∧ CompletedOk s t ∧ WroteB d y s t ∧
      if (s.readN c).toNat ≤ (s.readN b).toNat ∨ (s.readB a).length ≤ (s.readN b).toNat then y = []
      else y.length = min (s.readN c).toNat (s.readB a).length - (s.readN b).toNat ∧
        ∀ j, j < y.length → y[j]? = (s.readB a)[(s.readN b).toNat + j]?

/-! ### Keccak -/

/-- theta, chi and iota as 41_keccak.md R121, R123 and R124 write them, lane by lane; the round constants are those of
the FIPS 202 linear-feedback rule that R124 names: bit 2^j - 1 of RC[ir] is the coefficient of x^0 in step j + 7·ir. -/
def Obligations.ThetaChiAndIotaFollowTheRules : Prop :=
  (∀ (a : Lanes) (i : Fin 25), (theta a)[i] =
    a[i] ^^^ (parityOf a ((i.val % 5 + 4) % 5) ^^^ (parityOf a ((i.val % 5 + 1) % 5)).rotateLeft 1)) ∧
  (∀ (a : Lanes) (x y : Fin 5), lane (chi a) x.val y.val =
    lane a x.val y.val ^^^ (~~~(lane a ((x.val + 1) % 5) y.val) &&& lane a ((x.val + 2) % 5) y.val)) ∧
  (∀ (a : Lanes) (ir : Fin 24) (i : Fin 25), (iota a ir)[i] = if i = 0 then a[i] ^^^ roundConstant[ir] else a[i]) ∧
  (∀ (ir : Fin 24) (z : Fin 64), (roundConstant[ir]).getLsbD z.val =
    ((List.range 7).any fun j => z.val == 2 ^ j - 1 && (lfsr (j + 7 * ir.val)).getLsbD 0))

/-- rho+pi moves lane (x, y) to (y, 2x + 3y), rotated left by the offset the generating rule of 41_keccak.md R122 gives:
(t+1)(t+2)/2 mod 64 at the t-th place of the orbit of (1, 0), and 0 at (0, 0). -/
def Obligations.RhoPiFollowsTheGeneratingRule : Prop :=
  (∀ (a : Lanes) (t : Fin 24),
    lane (rhoPi a) (rhoWalk t.val).2 (2 * (rhoWalk t.val).1 + 3 * (rhoWalk t.val).2) =
      (lane a (rhoWalk t.val).1 (rhoWalk t.val).2).rotateLeft ((t.val + 1) * (t.val + 2) / 2 % 64)) ∧
  (∀ a : Lanes, lane (rhoPi a) 0 0 = lane a 0 0) ∧
  (∀ x y : Fin 5, (x.val, y.val) = (0, 0) ∨ ∃ t : Fin 24, rhoWalk t.val = (x.val, y.val))

/-- KP (41_keccak.md R126, R125): A becomes the last of a chain of 24 rounds, iota(chi(rhopi(theta(a))), ir) for
ir = 0 to 23 in that order; nothing else changes but STATUS. -/
def Obligations.KpAppliesTwentyFourRounds : Prop :=
  decode (assemble 0x20 0 0 0 0 0 0) = .ok .kp ∧
  ∀ s, ∃ (t : State) (chain : Nat → Lanes), exec .kp s = .next t ∧ CompletedOk s t ∧
    chain 0 = s.a ∧ (∀ ir : Fin 24, chain (ir.val + 1) = iota (chi (rhoPi (theta (chain ir.val)))) ir) ∧
    t = { s with a := chain 24, status := t.status }

/-- keccak_p is a permutation of the 1600-bit states: no two states have the same image, and every state is one
(41_keccak.md R125). -/
def Obligations.KeccakPIsBijective : Prop := Function.Bijective keccakP

/-- ALD and AST (41_keccak.md R127, R128) with the byte order of 20_memory.md R53: byte 8i + j is bits 8j+7 .. 8j of
lane i; ALD of any length but 200 is MalformedInput. -/
def Obligations.AldAndAstUseTheLaneOrder : Prop :=
  ∀ (d : Idx8) (s : State),
    decode (assemble 0x01 0 d.val 0 0 0 0) = .ok (.ald d) ∧ decode (assemble 0x02 d.val 0 0 0 0 0) = .ok (.ast d) ∧
    (if (s.readB d).length ≠ 200 then Fails (.ald d) s .malformedInput
     else ∃ t, exec (.ald d) s = .next t ∧ CompletedOk s t ∧ t = { s with a := t.a, status := t.status } ∧
       ∀ (i : Fin 25) (j : Fin 8), (s.readB d)[8 * i.val + j.val]? = some ((t.a[i]).extractLsb' (8 * j.val) 8)) ∧
    (∃ t y, exec (.ast d) s = .next t ∧ CompletedOk s t ∧ WroteB d y s t ∧ y.length = 200 ∧
       ∀ (i : Fin 25) (j : Fin 8), y[8 * i.val + j.val]? = some ((s.a[i]).extractLsb' (8 * j.val) 8))

/-! ### Sponge and KMAC -/

/-- The padding of 42_sponge.md R140 and the sponge function of R141: q = 136 - (m mod 136) bytes, the suffix in the
first and 80 in the last; a chain of blocks XORed into lanes 0 to 16 and permuted, from the zero state; output byte n is
byte n mod 136 of the rate portion after n div 136 further permutations. -/
def Obligations.SpongeAbsorbsAndSqueezes : Prop :=
  (∀ (m : Nat) (sfx : Byte), (padding m sfx).length = 136 - m % 136 ∧
    ∀ i, i < 136 - m % 136 → (padding m sfx)[i]? =
      some ((if i = 0 then sfx else 0) ^^^ (if i + 1 = 136 - m % 136 then 0x80 else 0))) ∧
  (∀ (m : Bytes) (sfx : Byte) (bits : Nat), bits % 8 = 0 →
    ∃ (blocks : Nat) (chain : Nat → Lanes), 1 ≤ blocks ∧ (m ++ padding m.length sfx).length = 136 * blocks ∧
      chain 0 = zeroLanes ∧
      (∀ j, j < blocks → chain (j + 1) = keccakP (Vector.ofFn fun i =>
        if i.val < 17 then (chain j)[i] ^^^
          le64 (slice (m ++ padding m.length sfx) (136 * j + 8 * i.val) (136 * j + 8 * i.val + 8))
        else (chain j)[i])) ∧
      (sponge m sfx bits).length = bits / 8 ∧
      ∀ n, n < bits / 8 → (sponge m sfx bits)[n]? =
        some ((lane (keccakP^[n / 136] (chain blocks)) (n % 136 / 8 % 5) (n % 136 / 8 / 5)).extractLsb'
          (8 * (n % 8)) 8))

/-- A shorter output of any of the four sponge functions is the prefix of a longer one for the same input
(42_sponge.md R141, 43_kmac.md R160). -/
def Obligations.ShorterSpongeOutputIsAPrefix : Prop :=
  ∀ (short long : Nat), short % 8 = 0 → long % 8 = 0 → short ≤ long →
    (∀ m sfx, sponge m sfx short = (sponge m sfx long).take (short / 8)) ∧
    (∀ m name custom, cshake256 m short name custom = (cshake256 m long name custom).take (short / 8)) ∧
    (∀ key data custom, kmacxof256 key data short custom = (kmacxof256 key data long custom).take (short / 8))

/-- SPONGE (42_sponge.md R142), errors in its order: L not a multiple of 8, suffix outside 0x01..0x7F, L/8 > BMAX. -/
def Obligations.SpongeCommandRunsTheSponge : Prop :=
  ∀ (d a b c : Idx8) (s : State),
    decode (assemble 0x28 d.val a.val b.val c.val 0 0) = .ok (.sponge d a b c) ∧
    if (s.readN b).toNat % 8 ≠ 0 then Fails (.sponge d a b c) s .domainError
    else if (s.readN c).toNat < 0x01 ∨ (s.readN c).toNat > 0x7F then Fails (.sponge d a b c) s .domainError
    else if (s.readN b).toNat / 8 > s.params.bmax then Fails (.sponge d a b c) s .capacity
    else ∃ t, exec (.sponge d a b c) s = .next t ∧ CompletedOk s t ∧
      WroteBS d (sponge (s.readB a) ((s.readN c).setWidth 8) (s.readN b).toNat) s t

/-- SHAKE and CSHAKE (42_sponge.md R143, R144) with the functions of R146 written out. -/
def Obligations.ShakeAndCshakeRunTheSponge : Prop :=
  ∀ (d a b c e : Idx8) (s : State),
    decode (assemble 0x29 d.val a.val b.val 0 0 0) = .ok (.shake d a b) ∧
    decode (assemble 0x2A d.val a.val b.val c.val e.val 0) = .ok (.cshake d a b c e) ∧
    if (s.readN b).toNat % 8 ≠ 0 then Fails (.shake d a b) s .domainError ∧ Fails (.cshake d a b c e) s .domainError
    else if (s.readN b).toNat / 8 > s.params.bmax then
      Fails (.shake d a b) s .capacity ∧ Fails (.cshake d a b c e) s .capacity
    else
      (∃ t, exec (.shake d a b) s = .next t ∧ CompletedOk s t ∧
        WroteBS d (sponge (s.readB a) 0x1F (s.readN b).toNat) s t) ∧
      (∃ t, exec (.cshake d a b c e) s = .next t ∧ CompletedOk s t ∧
        WroteBS d
          (if (s.readB c).length = 0 ∧ (s.readB e).length = 0 then sponge (s.readB a) 0x1F (s.readN b).toNat
           else sponge (bytepad (encodeString (s.readB c) ++ encodeString (s.readB e)) 136 ++ s.readB a) 0x04
             (s.readN b).toNat) s t)

/-- KMAC (43_kmac.md R161): the sponge with suffix 04 over the byte string R160 writes out in full. -/
def Obligations.KmacAbsorbsTheWrittenOutString : Prop :=
  ∀ (d a b c e : Idx8) (s : State),
    decode (assemble 0x30 d.val a.val b.val c.val e.val 0) = .ok (.kmac d a b c e) ∧
    if (s.readN c).toNat % 8 ≠ 0 then Fails (.kmac d a b c e) s .domainError
    else if (s.readN c).toNat / 8 > s.params.bmax then Fails (.kmac d a b c e) s .capacity
    else ∃ t, exec (.kmac d a b c e) s = .next t ∧ CompletedOk s t ∧
      WroteBS d
        (sponge
          (bytepad ([0x01, 0x20, 0x4B, 0x4D, 0x41, 0x43] ++ encodeString (s.readB e)) 136 ++
            bytepad (encodeString (s.readB a)) 136 ++ s.readB b ++ [0x00, 0x01])
          0x04 (s.readN c).toNat) s t

/-- The sponge commands agree where 42_sponge.md R142, R144 and 43_kmac.md R160 say so: SPONGE with suffix 1F and
CSHAKE with two empty strings leave what SHAKE leaves; CSHAKE over the padded key, the data and 00 01 with the name
"KMAC" leaves what KMAC leaves. -/
def Obligations.SpongeCommandsAgree : Prop :=
  (∀ d a b c s, (s.readN c).toNat = 0x1F → exec (.sponge d a b c) s = exec (.shake d a b) s) ∧
  (∀ d a b c e s, s.readB c = [] → s.readB e = [] → exec (.cshake d a b c e) s = exec (.shake d a b) s) ∧
  (∀ d a b c e s t u m name, exec (.kmac d a b c e) s = .next t →
    (s.writeB m (bytepad (encodeString (s.readB a)) 136 ++ s.readB b ++ [0x00, 0x01])).writeB name
      [0x4B, 0x4D, 0x41, 0x43] = u → m ≠ name → m ≠ e → name ≠ e →
    ∃ v, exec (.cshake d m c name e) u = .next v ∧ v.a = t.a ∧ v.status = t.status ∧
      (statusCode t.status = okCode → v.readB d = t.readB d))

/-! ### Field -/

/-- FLD and FST (44_field.md R173, R174): 56 big-endian bytes, reduced modulo p on load; any other length is
MalformedInput. -/
def Obligations.FldReducesAndFstStores : Prop :=
  ∀ (d a : Idx8) (s : State),
    decode (assemble 0x03 d.val a.val 0 0 0 0) = .ok (.fld d a) ∧
    decode (assemble 0x04 d.val a.val 0 0 0 0) = .ok (.fst d a) ∧
    (if (s.readB a).length ≠ 56 then Fails (.fld d a) s .malformedInput
     else ∃ t, exec (.fld d a) s = .next t ∧ CompletedOk s t ∧ WroteF d (os2ip (s.readB a) % fieldPrime) s t) ∧
    (∃ t y, exec (.fst d a) s = .next t ∧ CompletedOk s t ∧ WroteB d y s t ∧ y.length = 56 ∧
      os2ip y = (s.readF a).val)

/-- KLD and KST (44_field.md R175, R176): at most 64 big-endian bytes, not reduced; always 64 bytes stored. -/
def Obligations.KldKeepsTheIntegerAndKstStores : Prop :=
  ∀ (d : Idx8) (k : Idx4) (s : State),
    decode (assemble 0x05 k.val d.val 0 0 0 0) = .ok (.kld k d) ∧
    decode (assemble 0x06 d.val k.val 0 0 0 0) = .ok (.kst d k) ∧
    (if 64 < (s.readB d).length then Fails (.kld k d) s .malformedInput
     else ∃ t, exec (.kld k d) s = .next t ∧ CompletedOk s t ∧ WroteK k (os2ip (s.readB d)) s t) ∧
    (∃ t y, exec (.kst d k) s = .next t ∧ CompletedOk s t ∧ WroteB d y s t ∧ y.length = 64 ∧
      os2ip y = (s.readK k).toNat)

/-- FADD, FSUB and FMUL (44_field.md R177 to R179): sum, difference and product modulo p, in [0, p). -/
def Obligations.FaddFsubFmulAreModular : Prop :=
  ∀ (d a b : Idx8) (s : State),
    decode (assemble 0x40 d.val a.val b.val 0 0 0) = .ok (.fadd d a b) ∧
    decode (assemble 0x41 d.val a.val b.val 0 0 0) = .ok (.fsub d a b) ∧
    decode (assemble 0x42 d.val a.val b.val 0 0 0) = .ok (.fmul d a b) ∧
    (∃ t, exec (.fadd d a b) s = .next t ∧ CompletedOk s t ∧
      WroteF d (((s.readF a).val + (s.readF b).val) % fieldPrime) s t) ∧
    (∃ t v, exec (.fsub d a b) s = .next t ∧ CompletedOk s t ∧ WroteF d v s t ∧
      (v : Int) = (((s.readF a).val : Int) - ((s.readF b).val : Int)) % (fieldPrime : Int)) ∧
    (∃ t, exec (.fmul d a b) s = .next t ∧ CompletedOk s t ∧
      WroteF d ((s.readF a).val * (s.readF b).val % fieldPrime) s t)

/-- FINV (44_field.md R180): DomainError for 0, else the power p - 2 modulo p. -/
def Obligations.FinvComputesThePower : Prop :=
  ∀ (d a : Idx8) (s : State),
    decode (assemble 0x43 d.val a.val 0 0 0 0) = .ok (.finv d a) ∧
    if (s.readF a).val = 0 then Fails (.finv d a) s .domainError
    else ∃ t, exec (.finv d a) s = .next t ∧ CompletedOk s t ∧
      WroteF d ((s.readF a).val ^ (fieldPrime - 2) % fieldPrime) s t

/-- FSQRT (44_field.md R181): the candidate power (p + 1)/4, its negative modulo p where the least significant bit is
not the requested one, the check of the square, NoSquareRoot where it fails. -/
def Obligations.FsqrtFollowsThePseudocode : Prop :=
  ∀ (d a : Idx8) (imm : BitVec 4) (s : State), imm.toNat ≤ 1 →
    decode (assemble 0x44 d.val a.val 0 0 0 imm.toNat) = .ok (.fsqrt d a imm) ∧
    ∃ candidate root,
      candidate = (s.readF a).val ^ ((fieldPrime + 1) / 4) % fieldPrime ∧
      root = (if candidate % 2 ≠ imm.toNat then (fieldPrime - candidate) % fieldPrime else candidate) ∧
      if root * root % fieldPrime ≠ (s.readF a).val then Fails (.fsqrt d a imm) s .noSquareRoot
      else ∃ t, exec (.fsqrt d a imm) s = .next t ∧ CompletedOk s t ∧ WroteF d root s t

/-- FINV of a non-zero element writes the unique inverse in [1, p) (44_field.md R172). It rests on p being prime. -/
def Obligations.FinvIsTheInverse : Prop :=
  ∀ (d a : Idx8) (s : State), (s.readF a).val ≠ 0 →
    ∃ t v, exec (.finv d a) s = .next t ∧ CompletedOk s t ∧ WroteF d v s t ∧
      1 ≤ v ∧ v < fieldPrime ∧ (s.readF a).val * v % fieldPrime = 1 ∧
      ∀ u, u < fieldPrime → (s.readF a).val * u % fieldPrime = 1 → u = v

/-- FSQRT completes exactly on the squares modulo p, with a root that has the requested least significant bit, except
that 0 has only the root 0; on every other radicand it is NoSquareRoot (44_field.md R181, corner cases (a) and (b)). It
rests on p being prime and 3 modulo 4. -/
def Obligations.FsqrtCompletesExactlyOnSquares : Prop :=
  ∀ (d a : Idx8) (imm : BitVec 4) (s : State), imm.toNat ≤ 1 →
    ((∃ u, u * u % fieldPrime = (s.readF a).val) →
      ∃ t v, exec (.fsqrt d a imm) s = .next t ∧ CompletedOk s t ∧ WroteF d v s t ∧
        v * v % fieldPrime = (s.readF a).val ∧ ((s.readF a).val ≠ 0 → v % 2 = imm.toNat)) ∧
    ((¬ ∃ u, u * u % fieldPrime = (s.readF a).val) → Fails (.fsqrt d a imm) s .noSquareRoot)

/-! ### Points -/

/-- PTNEW (45_point.md R202) with the equation of R201 on integers: accepted exactly when
x² + y² ≡ 1 + (p - 39081)·x²·y² modulo p, else InvalidPoint. -/
def Obligations.PtnewChecksTheCurveEquation : Prop :=
  ∀ (d : Idx4) (a b : Idx8) (s : State),
    decode (assemble 0x50 d.val a.val b.val 0 0 0) = .ok (.ptnew d a b) ∧
    if ((s.readF a).val * (s.readF a).val + (s.readF b).val * (s.readF b).val) % fieldPrime =
        (1 + (fieldPrime - 39081) *
          ((s.readF a).val * (s.readF a).val * ((s.readF b).val * (s.readF b).val))) % fieldPrime
    then ∃ t, exec (.ptnew d a b) s = .next t ∧ CompletedOk s t ∧ WroteP d ⟨s.readF a, s.readF b⟩ s t
    else Fails (.ptnew d a b) s .invalidPoint

/-- PTFROMX (45_point.md R203): the radicand (1 - x²)/(1 - d·x²), its root with the requested bit by the method of
44_field.md R181, NoSquareRoot where there is none. -/
def Obligations.PtfromxTakesTheRoot : Prop :=
  ∀ (d : Idx4) (a : Idx8) (imm : BitVec 4) (s : State), imm.toNat ≤ 1 →
    decode (assemble 0x51 d.val a.val 0 0 0 imm.toNat) = .ok (.ptfromx d a imm) ∧
    ∃ xx num den v candidate root : Fe,
      xx = fmul (s.readF a) (s.readF a) ∧ num = fsub (Fe.ofNat 1) xx ∧
      den = fsub (Fe.ofNat 1) (fmul (Fe.ofNat (fieldPrime - 39081)) xx) ∧ v = fmul num (finv den) ∧
      candidate = fpow v ((fieldPrime + 1) / 4) ∧
      root = (if candidate.val % 2 ≠ imm.toNat then Fe.ofNat (fieldPrime - candidate.val) else candidate) ∧
      if fmul root root ≠ v then Fails (.ptfromx d a imm) s .noSquareRoot
      else ∃ t, exec (.ptfromx d a imm) s = .next t ∧ CompletedOk s t ∧ WroteP d ⟨s.readF a, root⟩ s t

/-- PTADD (45_point.md R205) with the formula of R204. -/
def Obligations.PtaddComputesTheFormula : Prop :=
  ∀ (d a b : Idx4) (s : State),
    decode (assemble 0x52 d.val a.val b.val 0 0 0) = .ok (.ptadd d a b) ∧
    ∃ (t : State) (x1 y1 x2 y2 m : Fe), x1 = (s.readP a).x ∧ y1 = (s.readP a).y ∧ x2 = (s.readP b).x ∧
      y2 = (s.readP b).y ∧ m = fmul (Fe.ofNat (fieldPrime - 39081)) (fmul (fmul x1 x2) (fmul y1 y2)) ∧
      exec (.ptadd d a b) s = .next t ∧ CompletedOk s t ∧
      WroteP d
        ⟨fmul (fadd (fmul x1 y2) (fmul y1 x2)) (finv (fadd (Fe.ofNat 1) m)),
         fmul (fsub (fmul y1 y2) (fmul x1 x2)) (finv (fsub (Fe.ofNat 1) m))⟩ s t

/-- The addition law is complete on the curve (45_point.md R204): for any two points both denominators are non-zero
modulo p, and the coordinates PTADD writes satisfy the law's equations, cleared of division. -/
def Obligations.PtaddMeetsTheCompleteAdditionLaw : Prop :=
  ∀ (d a b : Idx4) (s : State) (x1 y1 x2 y2 m : ZMod fieldPrime),
    onCurve (s.readP a) = true → onCurve (s.readP b) = true →
    x1 = ((s.readP a).x.val : ZMod fieldPrime) → y1 = ((s.readP a).y.val : ZMod fieldPrime) →
    x2 = ((s.readP b).x.val : ZMod fieldPrime) → y2 = ((s.readP b).y.val : ZMod fieldPrime) →
    m = -39081 * x1 * x2 * y1 * y2 →
    1 + m ≠ 0 ∧ 1 - m ≠ 0 ∧
    ∃ (t : State) (q : Point), exec (.ptadd d a b) s = .next t ∧ CompletedOk s t ∧ WroteP d q s t ∧
      onCurve q = true ∧ (q.x.val : ZMod fieldPrime) * (1 + m) = x1 * y2 + y1 * x2 ∧
      (q.y.val : ZMod fieldPrime) * (1 - m) = y1 * y2 - x1 * x2

/-- PTMUL (45_point.md R207): the scalar is used as it stands, and the multiple is the one R206's double-and-add
gives, said bit by bit from the high end: O for 0; the double of the multiple by k div 2, plus P where k is odd. -/
def Obligations.PtmulDoublesAndAdds : Prop :=
  (∀ (d a b : Idx4) (s : State),
    decode (assemble 0x53 d.val a.val b.val 0 0 0) = .ok (.ptmul d a b) ∧
    ∃ t, exec (.ptmul d a b) s = .next t ∧ CompletedOk s t ∧
      WroteP d (scalarMultiply (s.readP a) (s.readK b).toNat) s t) ∧
  (∀ q : Point, scalarMultiply q 0 = Config.neutral) ∧
  (∀ (q : Point) (k : Nat), 0 < k → scalarMultiply q k =
    if k % 2 = 1 then ptAdd (ptAdd (scalarMultiply q (k / 2)) (scalarMultiply q (k / 2))) q
    else ptAdd (scalarMultiply q (k / 2)) (scalarMultiply q (k / 2)))

/-- PTENC and PTDEC (45_point.md R209, R210): x then y, 56 big-endian bytes each; on decoding reduced modulo p, any
length but 112 MalformedInput, a pair off the curve InvalidPoint. -/
def Obligations.PtencAndPtdecUseFixedHalves : Prop :=
  ∀ (d : Idx4) (a : Idx8) (s : State),
    decode (assemble 0x54 a.val d.val 0 0 0 0) = .ok (.ptenc a d) ∧
    decode (assemble 0x55 d.val a.val 0 0 0 0) = .ok (.ptdec d a) ∧
    (∃ t x y, exec (.ptenc a d) s = .next t ∧ CompletedOk s t ∧ WroteB a (x ++ y) s t ∧
      x.length = 56 ∧ y.length = 56 ∧ os2ip x = (s.readP d).x.val ∧ os2ip y = (s.readP d).y.val) ∧
    (if (s.readB a).length ≠ 112 then Fails (.ptdec d a) s .malformedInput
     else ∃ q : Point, q.x.val = os2ip ((s.readB a).take 56) % fieldPrime ∧
       q.y.val = os2ip ((s.readB a).drop 56) % fieldPrime ∧
       if onCurve q = false then Fails (.ptdec d a) s .invalidPoint
       else ∃ t, exec (.ptdec d a) s = .next t ∧ CompletedOk s t ∧ WroteP d q s t)

/-- PTG (45_point.md R211): the base point G. -/
def Obligations.PtgLoadsTheBasePoint : Prop :=
  ∀ (d : Idx4) (s : State), decode (assemble 0x56 d.val 0 0 0 0 0) = .ok (.ptg d) ∧
    ∃ t, exec (.ptg d) s = .next t ∧ CompletedOk s t ∧ WroteP d s.params.g s t

/-- Storing a register and loading the bytes gives the register's value back: AST then ALD, FST then FLD
(44_field.md R174), KST then KLD, and PTENC then PTDEC for every point on the curve (45_point.md R212). -/
def Obligations.StoreThenLoadGivesTheValueBack : Prop :=
  (∀ d s t, exec (.ast d) s = .next t → ∃ u, exec (.ald d) t = .next u ∧ CompletedOk t u ∧ u.a = s.a) ∧
  (∀ x y z s t, exec (.fst y z) s = .next t →
    ∃ u, exec (.fld x y) t = .next u ∧ CompletedOk t u ∧ u.readF x = s.readF z) ∧
  (∀ x y z s t, exec (.kst y z) s = .next t →
    ∃ u, exec (.kld x y) t = .next u ∧ CompletedOk t u ∧ u.readK x = s.readK z) ∧
  (∀ x y z s t, onCurve (s.readP z) = true → exec (.ptenc y z) s = .next t →
    ∃ u, exec (.ptdec x y) t = .next u ∧ CompletedOk t u ∧ u.readP x = s.readP z)

/-! ### Protocols: the pseudocode of 46_protocols.md, with kmacxof256, scalarMultiply and add as functions -/

/-- KEYPAIR (46_protocols.md R231): s = OS2IP(kmac(pw, "", 512, "SK"))·4 mod r and V = s·G; A is 0. -/
def Obligations.KeypairDerivesScalarAndPoint : Prop :=
  ∀ (d e : Idx4) (a : Idx8) (s : State), ParamsOk s.params →
    decode (assemble 0x60 d.val a.val 0 0 e.val 0) = .ok (.keypair d e a) ∧
    ∃ t scalar, scalar = os2ip (kmacxof256 (s.readB a) [] 512 [0x53, 0x4B]) * 4 % s.params.r ∧
      exec (.keypair d e a) s = .next t ∧ CompletedOk s t ∧
      t = { s with a := zeroLanes, k := t.k, p := t.p, status := t.status } ∧
      (t.readK d).toNat = scalar ∧ (∀ j, j ≠ d → t.readK j = s.readK j) ∧
      t.readP e = scalarMultiply s.params.g scalar ∧ (∀ j, j ≠ e → t.readP j = s.readP j)

/-- ENCPK (46_protocols.md R232), with the layout of R238. -/
def Obligations.EncpkFollowsThePseudocode : Prop :=
  ∀ (d a : Idx8) (b : Idx4) (c : Idx8) (s : State),
    decode (assemble 0x61 d.val a.val b.val c.val 0 0) = .ok (.encpk d a b c) ∧
    if (s.readB c).length ≠ 64 then Fails (.encpk d a b c) s .malformedInput
    else if 176 + (s.readB a).length > s.params.bmax then Fails (.encpk d a b c) s .capacity
    else ∃ (t : State) (k : Nat) (w z : Point) (derived cipher tag : Bytes),
      k = os2ip (s.readB c) * 4 % s.params.r ∧ w = scalarMultiply (s.readP b) k ∧ z = scalarMultiply s.params.g k ∧
      derived = kmacxof256 (i2osp w.x.val 56) [] 1024 [0x50, 0x4B] ∧
      cipher = xorBytes (kmacxof256 (derived.take 64) [] (8 * (s.readB a).length) [0x50, 0x4B, 0x45]) (s.readB a) ∧
      tag = kmacxof256 (derived.drop 64) (s.readB a) 512 [0x50, 0x4B, 0x41] ∧
      exec (.encpk d a b c) s = .next t ∧ CompletedOk s t ∧
      WroteBS d (i2osp z.x.val 56 ++ i2osp z.y.val 56 ++ cipher ++ tag) s t

/-- DECPK (46_protocols.md R233): MalformedInput, InvalidPoint, AuthenticationFailure in that order, else the message. -/
def Obligations.DecpkFollowsThePseudocode : Prop :=
  ∀ (d a b : Idx8) (s : State),
    decode (assemble 0x62 d.val a.val b.val 0 0 0) = .ok (.decpk d a b) ∧
    if (s.readB a).length < 176 then Fails (.decpk d a b) s .malformedInput
    else ∃ (n : Nat) (z : Point), n = (s.readB a).length - 176 ∧
      z.x.val = os2ip (slice (s.readB a) 0 56) % fieldPrime ∧
      z.y.val = os2ip (slice (s.readB a) 56 112) % fieldPrime ∧
      if onCurve z = false then Fails (.decpk d a b) s .invalidPoint
      else ∃ (scalar : Nat) (w : Point) (derived m : Bytes),
        scalar = os2ip (kmacxof256 (s.readB b) [] 512 [0x53, 0x4B]) * 4 % s.params.r ∧ w = scalarMultiply z scalar ∧
        derived = kmacxof256 (i2osp w.x.val 56) [] 1024 [0x50, 0x4B] ∧
        m = xorBytes (kmacxof256 (derived.take 64) [] (8 * n) [0x50, 0x4B, 0x45]) (slice (s.readB a) 112 (112 + n)) ∧
        if kmacxof256 (derived.drop 64) m 512 [0x50, 0x4B, 0x41] ≠ slice (s.readB a) (112 + n) (176 + n)
        then Fails (.decpk d a b) s .authenticationFailure
        else ∃ t, exec (.decpk d a b) s = .next t ∧ CompletedOk s t ∧ WroteBS d m s t

/-- ENCSYM (46_protocols.md R234), with the layout of R238. -/
def Obligations.EncsymFollowsThePseudocode : Prop :=
  ∀ (d a b c : Idx8) (s : State),
    decode (assemble 0x63 d.val a.val b.val c.val 0 0) = .ok (.encsym d a b c) ∧
    if (s.readB c).length ≠ 64 then Fails (.encsym d a b c) s .malformedInput
    else if 128 + (s.readB a).length > s.params.bmax then Fails (.encsym d a b c) s .capacity
    else ∃ (t : State) (derived cipher tag : Bytes),
      derived = kmacxof256 (s.readB c ++ s.readB b) [] 1024 [0x53] ∧
      cipher = xorBytes (kmacxof256 (derived.take 64) [] (8 * (s.readB a).length) [0x50, 0x4B, 0x45]) (s.readB a) ∧
      tag = kmacxof256 (derived.drop 64) (s.readB a) 512 [0x50, 0x4B, 0x41] ∧
      exec (.encsym d a b c) s = .next t ∧ CompletedOk s t ∧ WroteBS d (s.readB c ++ cipher ++ tag) s t

/-- DECSYM (46_protocols.md R235): MalformedInput, AuthenticationFailure, else the message. -/
def Obligations.DecsymFollowsThePseudocode : Prop :=
  ∀ (d a b : Idx8) (s : State),
    decode (assemble 0x64 d.val a.val b.val 0 0 0) = .ok (.decsym d a b) ∧
    if (s.readB a).length < 128 then Fails (.decsym d a b) s .malformedInput
    else ∃ (n : Nat) (derived m : Bytes), n = (s.readB a).length - 128 ∧
      derived = kmacxof256 (slice (s.readB a) 0 64 ++ s.readB b) [] 1024 [0x53] ∧
      m = xorBytes (kmacxof256 (derived.take 64) [] (8 * n) [0x50, 0x4B, 0x45]) (slice (s.readB a) 64 (64 + n)) ∧
      if kmacxof256 (derived.drop 64) m 512 [0x50, 0x4B, 0x41] ≠ slice (s.readB a) (64 + n) (128 + n)
      then Fails (.decsym d a b) s .authenticationFailure
      else ∃ t, exec (.decsym d a b) s = .next t ∧ CompletedOk s t ∧ WroteBS d m s t

/-- SIGN (46_protocols.md R236): h in 64 bytes, then z = (k - h·s) mod r in 56. -/
def Obligations.SignFollowsThePseudocode : Prop :=
  ∀ (d a b : Idx8) (s : State), ParamsOk s.params →
    decode (assemble 0x65 d.val a.val b.val 0 0 0) = .ok (.sign d a b) ∧
    ∃ (t : State) (scalar k h z : Nat) (u : Point),
      scalar = os2ip (kmacxof256 (s.readB b) [] 512 [0x53, 0x4B]) * 4 % s.params.r ∧
      k = os2ip (kmacxof256 (i2osp scalar 56) (s.readB a) 512 [0x4E]) * 4 % s.params.r ∧
      u = scalarMultiply s.params.g k ∧
      h = os2ip (kmacxof256 (i2osp u.x.val 56) (s.readB a) 512 [0x54]) ∧
      (z : Int) = ((k : Int) - (h : Int) * (scalar : Int)) % (s.params.r : Int) ∧
      exec (.sign d a b) s = .next t ∧ CompletedOk s t ∧ WroteBS d (i2osp h 64 ++ i2osp z 56) s t

/-- VERIFY (46_protocols.md R237): 1 or 0 in N[d], completing with OK either way; MalformedInput for any length but
120. -/
def Obligations.VerifyWritesTheVerdict : Prop :=
  ∀ (d a b : Idx8) (c : Idx4) (s : State),
    decode (assemble 0x66 d.val a.val b.val c.val 0 0) = .ok (.verify d a b c) ∧
    if (s.readB a).length ≠ 120 then Fails (.verify d a b c) s .malformedInput
    else ∃ (t : State) (h z : Nat) (u : Point),
      h = os2ip ((s.readB a).take 64) ∧ z = os2ip ((s.readB a).drop 64) ∧
      u = ptAdd (scalarMultiply s.params.g z) (scalarMultiply (s.readP c) h) ∧
      exec (.verify d a b c) s = .next t ∧ CompletedOk s t ∧
      WroteNS d (if os2ip (kmacxof256 (i2osp u.x.val 56) (s.readB b) 512 [0x54]) = h then 1 else 0) s t

/-- The symmetric round trip (46_protocols.md R239): DECSYM of what ENCSYM left, with the same passphrase, gives the
message back, for every message, passphrase and 64-byte nonce that fit. The cryptogram may be left in any buffer but
the passphrase's. -/
def Obligations.SymmetricRoundTrip : Prop :=
  ∀ (cg msg pw nonce out : Idx8) (s : State), (s.readB nonce).length = 64 →
    128 + (s.readB msg).length ≤ s.params.bmax → cg ≠ pw →
    ∃ t u, exec (.encsym cg msg pw nonce) s = .next t ∧ CompletedOk s t ∧
      exec (.decsym out cg pw) t = .next u ∧ CompletedOk t u ∧ u.readB out = s.readB msg

/-- DECPK of what ENCPK left gives the message back whenever the sender's and the receiver's shared points are equal
(46_protocols.md R233, R239): V·k = Z·s for Z = k·G and s the receiver's scalar, with Z on the curve. -/
def Obligations.DecpkRecoversWhenTheSharedPointsAgree : Prop :=
  ∀ (cg msg rnd pw out : Idx8) (v : Idx4) (s : State) (k : Nat),
    (s.readB rnd).length = 64 → 176 + (s.readB msg).length ≤ s.params.bmax → cg ≠ pw →
    k = os2ip (s.readB rnd) * 4 % s.params.r → onCurve (scalarMultiply s.params.g k) = true →
    scalarMultiply (s.readP v) k =
      scalarMultiply (scalarMultiply s.params.g k)
        (os2ip (kmacxof256 (s.readB pw) [] 512 [0x53, 0x4B]) * 4 % s.params.r) →
    ∃ t u, exec (.encpk cg msg v rnd) s = .next t ∧ CompletedOk s t ∧
      exec (.decpk out cg pw) t = .next u ∧ CompletedOk t u ∧ u.readB out = s.readB msg

/-- VERIFY accepts what SIGN left whenever the recomputed commitment G·z + V·h is the signer's U = k·G
(46_protocols.md R237). -/
def Obligations.VerifyAcceptsWhenTheCommitmentAgrees : Prop :=
  ∀ (sig msg pw verdict : Idx8) (v : Idx4) (s : State) (scalar k h z : Nat), ParamsOk s.params → sig ≠ msg →
    scalar = os2ip (kmacxof256 (s.readB pw) [] 512 [0x53, 0x4B]) * 4 % s.params.r →
    k = os2ip (kmacxof256 (i2osp scalar 56) (s.readB msg) 512 [0x4E]) * 4 % s.params.r →
    h = os2ip (kmacxof256 (i2osp (scalarMultiply s.params.g k).x.val 56) (s.readB msg) 512 [0x54]) →
    (z : Int) = ((k : Int) - (h : Int) * (scalar : Int)) % (s.params.r : Int) →
    ptAdd (scalarMultiply s.params.g z) (scalarMultiply (s.readP v) h) = scalarMultiply s.params.g k →
    ∃ t u, exec (.sign sig msg pw) s = .next t ∧ CompletedOk s t ∧
      exec (.verify verdict sig msg v) t = .next u ∧ CompletedOk t u ∧ u.readN verdict = 1

/-! ### The host interface -/

/-- The host procedures (20_memory.md R68): after HostLoad the buffer holds exactly the string and no other register
changes but BSEL and BPTR; HostStore gives the bytes in order; HostSetN and HostGetN carry all 64 bits; HostIssue
returns the code of the command it issued. The bound on the number of polls is the model's own (Log 4). -/
def Obligations.HostProceduresMoveTheData : Prop :=
  (∀ (i : Idx8) (x : Bytes) (s : State), statusBusy s.status = false → x.length ≤ s.params.bmax →
    s.params.bmax < 2 ^ 31 →
    ∃ t, performAll (hostLoad i x) s = .next t ∧ t.readB i = x ∧ (∀ j, j ≠ i → t.readB j = s.readB j) ∧
      t = { s with b := t.b, bsel := t.bsel, bptr := t.bptr }) ∧
  (∀ (i : Idx8) (s : State), statusBusy s.status = false → (s.readB i).length < 2 ^ 31 →
    ∃ t, hostStore i s = some (s.readB i, t) ∧ t = { s with bsel := t.bsel, bptr := t.bptr }) ∧
  (∀ (i : Idx8) (v : BitVec 64) (s : State), statusBusy s.status = false →
    performAll (hostSetN i v) s = .next (s.writeN i v) ∧ hostGetN i s = s.readN i) ∧
  (∀ (polls : Nat) (w : Word) (s : State), statusBusy s.status = false →
    ∃ t, issue w s = .next t ∧ hostIssue (polls + 1) w s = some (statusCode t.status, t))

/-- The buffer window (20_memory.md R57 to R60). In every state, so with BUSY = 1 too, where commands are executed, no
command and no word issued changes BPTR. While BUSY = 0, x the selected buffer: BSEL; BPTR; BLEN, a write of which cuts
or extends with 00 or, above BMAX, is ignored; BDATA, overwriting, appending or ignored. -/
def Obligations.BufferWindowFollowsItsRules : Prop :=
  (∀ i (s t : State), exec i s = .next t → t.bptr = s.bptr) ∧
  (∀ w (s t : State), issue w s = .next t → t.bptr = s.bptr) ∧
  ∀ (s : State) (v : Word), statusBusy s.status = false → s.params.bmax < 2 ^ 31 →
    (s.readB (selected s)).length ≤ s.params.bmax →
    (selected s).val = s.bsel.toNat ∧
    perform (.write 0x08 4 v) s = .next { s with bsel := v.extractLsb' 0 3, bptr := 0 } ∧
    perform (.read 0x08 4) s = .next { s with replies := s.replies ++ [s.bsel.setWidth 32] } ∧
    perform (.write 0x0C 4 v) s = .next { s with bptr := v } ∧
    perform (.read 0x0C 4) s = .next { s with replies := s.replies ++ [s.bptr] } ∧
    perform (.read 0x10 4) s = .next { s with
      replies := s.replies ++ [BitVec.ofNat 32 (s.readB (selected s)).length] } ∧
    (if s.params.bmax < v.toNat then perform (.write 0x10 4 v) s = .next s
     else ∃ t, perform (.write 0x10 4 v) s = .next t ∧ t = { s with b := t.b, bptr := 0 } ∧
       (∀ j m, j ≠ selected s → t.byteAt j m = s.byteAt j m) ∧ (t.readB (selected s)).length = v.toNat ∧
       ∀ m, m < v.toNat → t.byteAt (selected s) m = some ((s.byteAt (selected s) m).getD 0)) ∧
    (if s.bptr.toNat < (s.readB (selected s)).length then
      (∃ byte, s.byteAt (selected s) s.bptr.toNat = some byte ∧ perform (.read 0x14 4) s = .next { s with
        bptr := s.bptr + 1
        replies := s.replies ++ [byte.setWidth 32] }) ∧
      (∃ t, perform (.write 0x14 4 v) s = .next t ∧ t = { s with b := t.b, bptr := s.bptr + 1 } ∧
        (∀ j m, (j, m) ≠ (selected s, s.bptr.toNat) → t.byteAt j m = s.byteAt j m) ∧
        t.byteAt (selected s) s.bptr.toNat = some (v.extractLsb' 0 8))
     else
      perform (.read 0x14 4) s = .next { s with replies := s.replies ++ [0] } ∧
      if s.bptr.toNat = (s.readB (selected s)).length ∧ (s.readB (selected s)).length < s.params.bmax then
        ∃ t, perform (.write 0x14 4 v) s = .next t ∧ t = { s with b := t.b, bptr := s.bptr + 1 } ∧
          (∀ j, j ≠ selected s → t.readB j = s.readB j) ∧
          t.readB (selected s) = s.readB (selected s) ++ [v.extractLsb' 0 8]
      else perform (.write 0x14 4 v) s = .next s)

/-- The other registers of the map while BUSY = 0: reads of CMD and STATUS; the write-1-to-clear of DONE and ESTK
(10_state.md R29, R30); BMAXR (20_memory.md R56); the two halves of N[i] (R61); the reserved offsets 0x1C to 0x3C read 0
and ignore writes (R62). Offsets from 0x80 on are outside the engine (R62); that an access there is refused as
`outsideEngine` whatever its size and alignment is the model's choice (Log 7). -/
def Obligations.PlainHostRegistersFollowTheirRules : Prop :=
  ∀ (s : State) (v : Word), statusBusy s.status = false →
    perform (.read 0x00 4) s = .next { s with replies := s.replies ++ [s.cmd] } ∧
    (shownStatus s.status = s.status →
      perform (.read 0x04 4) s = .next { s with replies := s.replies ++ [s.status] }) ∧
    (∃ t, perform (.write 0x04 4 v) s = .next t ∧ t = { s with status := t.status } ∧
      statusDone t.status = (statusDone s.status && !v.getLsbD 1) ∧
      statusEstk t.status = (statusEstk s.status && !v.getLsbD 2) ∧
      statusBusy t.status = false ∧ statusCode t.status = statusCode s.status ∧ shownStatus t.status = t.status) ∧
    (s.params.bmax < 2 ^ 31 → ∃ b : Word, b.toNat = s.params.bmax ∧
      perform (.read 0x18 4) s = .next { s with replies := s.replies ++ [b] }) ∧
    perform (.write 0x18 4 v) s = .next s ∧
    (∀ i : Idx8,
      perform (.read (0x40 + 8 * i.val) 4) s =
        .next { s with replies := s.replies ++ [(s.readN i).extractLsb' 0 32] } ∧
      perform (.read (0x44 + 8 * i.val) 4) s =
        .next { s with replies := s.replies ++ [(s.readN i).extractLsb' 32 32] } ∧
      (∃ t, perform (.write (0x40 + 8 * i.val) 4 v) s = .next t ∧ t = { s with n := t.n } ∧
        (t.readN i).toNat = (s.readN i).toNat / 2 ^ 32 * 2 ^ 32 + v.toNat ∧ ∀ j, j ≠ i → t.readN j = s.readN j) ∧
      (∃ t, perform (.write (0x44 + 8 * i.val) 4 v) s = .next t ∧ t = { s with n := t.n } ∧
        (t.readN i).toNat = v.toNat * 2 ^ 32 + (s.readN i).toNat % 2 ^ 32 ∧ ∀ j, j ≠ i → t.readN j = s.readN j)) ∧
    (∀ off, 0x1C ≤ off → off < 0x40 → off % 4 = 0 →
      perform (.read off 4) s = .next { s with replies := s.replies ++ [0] } ∧ perform (.write off 4 v) s = .next s) ∧
    (∀ off size, 0x80 ≤ off →
      perform (.read off size) s = .refused .outsideEngine ∧ perform (.write off size v) s = .refused .outsideEngine)

/-- While BUSY = 1 (70_reset_and_hazards.md R293) every write is ignored; BLEN, BDATA and the N window read 0, as do the
reserved offsets (20_memory.md R62); STATUS, CMD, BSEL, BPTR and BMAXR read their values, BMAXR for a BMAX within its
range (00_scope.md R13); and no read changes anything but the list of replies. No run reaches BUSY = 1 between inputs,
since a command is one step. -/
def Obligations.BusyEngineIgnoresTheHost : Prop :=
  ∀ s : State, statusBusy s.status = true →
    (∀ off v, off < 0x80 → off % 4 = 0 → perform (.write off 4 v) s = .next s) ∧
    (∀ off, off < 0x80 → off % 4 = 0 → ∃ v, perform (.read off 4) s = .next { s with replies := s.replies ++ [v] }) ∧
    (∀ off, off = 0x10 ∨ off = 0x14 ∨ (0x1C ≤ off ∧ off < 0x80 ∧ off % 4 = 0) →
      perform (.read off 4) s = .next { s with replies := s.replies ++ [0] }) ∧
    perform (.read 0x00 4) s = .next { s with replies := s.replies ++ [s.cmd] } ∧
    perform (.read 0x04 4) s = .next { s with replies := s.replies ++ [shownStatus s.status] } ∧
    perform (.read 0x08 4) s = .next { s with replies := s.replies ++ [s.bsel.setWidth 32] } ∧
    perform (.read 0x0C 4) s = .next { s with replies := s.replies ++ [s.bptr] } ∧
    (s.params.bmax < 2 ^ 31 → ∃ b : Word, b.toNat = s.params.bmax ∧
      perform (.read 0x18 4) s = .next { s with replies := s.replies ++ [b] })

/-- Every aligned 32-bit access inside the map, and every reset, has an outcome in every state; every other access is
refused (20_memory.md R62, R63; 93_implementation_defined.md Part 1). -/
def Obligations.DefinedAccessesAnswerAndOthersAreRefused : Prop :=
  ∀ (input : Input) (s : State),
    if input.defined then ∃ t, perform input s = .next t else ∃ why, perform input s = .refused why
end

