-- ==== Sys2Proof/Laws/Curve.lean ====
section
/-! SUPPORT. The neutral element under addition and scalar multiplication (45_point.md R204, R207). -/

namespace Sys2Proof.Machine

/-- `add(O, O) = O` (45_point.md R205). -/
theorem ptAdd_neutral_neutral : ptAdd Config.neutral Config.neutral = Config.neutral := by decide +kernel

/-- From O, the loop of the multiplication of O stays at O. -/
theorem mulLoop_neutral (k i : Nat) : mulLoop Config.neutral k i Config.neutral = Config.neutral := by
  induction i with
  | zero => rfl
  | succ i ih => simp [mulLoop, ptAdd_neutral_neutral, ih]

/-- `scalarMultiply(O, k) = O` for every k (45_point.md R207). -/
@[simp] theorem scalarMultiply_neutral (k : Nat) : scalarMultiply Config.neutral k = Config.neutral :=
  mulLoop_neutral k _

/-- `scalarMultiply(P, 0) = O` (45_point.md R206). -/
@[simp] theorem scalarMultiply_zero (q : Point) : scalarMultiply q 0 = Config.neutral := rfl

end Sys2Proof.Machine
end

