-- ==== Sys2Proof/Laws/Decode.lean ====
section
/-! SUPPORT. The fields of an assembled word (30_encoding.md R81, R87). -/

namespace Sys2Proof

section
variable {opc rd ra rb rc re imm : Nat} (hopc : opc < 256) (hrd : rd < 16) (hra : ra < 16) (hrb : rb < 16)
  (hrc : rc < 16) (hre : re < 16) (himm : imm < 16)
include hopc hrd hra hrb hrc hre himm

/-- The value of an assembled word, each field in its range. -/
theorem assemble_toNat : (assemble opc rd ra rb rc re imm).toNat =
    opc * 2^24 + rd * 2^20 + ra * 2^16 + rb * 2^12 + rc * 2^8 + re * 2^4 + imm := by
  rw [assemble, BitVec.toNat_ofNat, Nat.mod_eq_of_lt (by omega)]

theorem opcOf_assemble : opcOf (assemble opc rd ra rb rc re imm) = opc := by
  rw [opcOf, BitVec.extractLsb'_toNat, assemble_toNat hopc hrd hra hrb hrc hre himm, Nat.shiftRight_eq_div_pow]
  omega

theorem rdOf_assemble : rdOf (assemble opc rd ra rb rc re imm) = rd := by
  rw [rdOf, BitVec.extractLsb'_toNat, assemble_toNat hopc hrd hra hrb hrc hre himm, Nat.shiftRight_eq_div_pow]
  omega

theorem raOf_assemble : raOf (assemble opc rd ra rb rc re imm) = ra := by
  rw [raOf, BitVec.extractLsb'_toNat, assemble_toNat hopc hrd hra hrb hrc hre himm, Nat.shiftRight_eq_div_pow]
  omega

theorem rbOf_assemble : rbOf (assemble opc rd ra rb rc re imm) = rb := by
  rw [rbOf, BitVec.extractLsb'_toNat, assemble_toNat hopc hrd hra hrb hrc hre himm, Nat.shiftRight_eq_div_pow]
  omega

theorem rcOf_assemble : rcOf (assemble opc rd ra rb rc re imm) = rc := by
  rw [rcOf, BitVec.extractLsb'_toNat, assemble_toNat hopc hrd hra hrb hrc hre himm, Nat.shiftRight_eq_div_pow]
  omega

theorem reOf_assemble : reOf (assemble opc rd ra rb rc re imm) = re := by
  rw [reOf, BitVec.extractLsb'_toNat, assemble_toNat hopc hrd hra hrb hrc hre himm, Nat.shiftRight_eq_div_pow]
  omega

theorem immOf_assemble : immOf (assemble opc rd ra rb rc re imm) = imm := by
  rw [immOf, BitVec.extractLsb'_toNat, assemble_toNat hopc hrd hra hrb hrc hre himm, Nat.shiftRight_eq_div_pow]
  omega

end

/-- A word is the assembly of its seven fields. -/
theorem assemble_fields (w : Word) :
    assemble (opcOf w) (rdOf w) (raOf w) (rbOf w) (rcOf w) (reOf w) (immOf w) = w := by
  have hw := w.isLt
  apply BitVec.eq_of_toNat_eq
  simp only [assemble, opcOf, rdOf, raOf, rbOf, rcOf, reOf, immOf, BitVec.extractLsb'_toNat, BitVec.toNat_ofNat,
    Nat.shiftRight_eq_div_pow]
  omega

/-- Everything an index of an 8-entry file can decode to. -/
theorem index8_eq_ok {v : Nat} {i : Idx8} : index8 v = .ok i ↔ v = i.val := by
  unfold index8
  split
  · simp [Fin.ext_iff]
  · simp; omega

/-- Everything an index of a 4-entry file can decode to. -/
theorem index4_eq_ok {v : Nat} {i : Idx4} : index4 v = .ok i ↔ v = i.val := by
  unfold index4
  split
  · simp [Fin.ext_iff]
  · simp; omega

/-- Everything the lsb immediate can decode to. -/
theorem immediate_eq_ok {v : Nat} {imm : BitVec 4} : immediate v = .ok imm ↔ v = imm.toNat ∧ imm.toNat ≤ 1 := by
  unfold immediate
  split
  · rename_i h
    simp only [Except.ok.injEq, BitVec.toNat_eq, BitVec.toNat_ofNat]
    omega
  · simp; omega

/-- The unused fields pass exactly when all are zero. -/
theorem unused_eq_ok {fields : List Nat} : unused fields = .ok () ↔ ∀ v ∈ fields, v = 0 := by
  unfold unused
  split
  · rename_i h
    simpa using h
  · rename_i h
    simpa using h

end Sys2Proof
end

