-- ==== Sys2Proof/Laws/Field.lean ====
section
/-! SUPPORT. The field functions as integer arithmetic modulo p (44_field.md R172). -/

namespace Sys2Proof.Machine

@[simp] theorem ofNat_val (v : Nat) : (Fe.ofNat v).val = v % fieldPrime := rfl

theorem ofNat_val_self (a : Fe) : Fe.ofNat a.val = a := Fin.ext (Nat.mod_eq_of_lt a.isLt)

theorem fadd_val (a b : Fe) : (fadd a b).val = (a.val + b.val) % fieldPrime := rfl

theorem fmul_val (a b : Fe) : (fmul a b).val = a.val * b.val % fieldPrime := rfl

/-- fsub is subtraction modulo p, also for a < b. -/
theorem fsub_val (a b : Fe) : ((fsub a b).val : Int) = ((a.val : Int) - b.val) % fieldPrime := by
  have hb := b.isLt
  have : ((a.val + (fieldPrime - b.val) : Nat) : Int) = (a.val : Int) - b.val + fieldPrime := by omega
  show (((a.val + (fieldPrime - b.val)) % fieldPrime : Nat) : Int) = _
  rw [Int.natCast_mod, this, Int.add_emod_right]

theorem mod_two_pow_succ (e i : Nat) : e % 2 ^ (i + 1) = 2 ^ i * (e.testBit i).toNat + e % 2 ^ i := by
  have h : (e.testBit i).toNat = e / 2 ^ i % 2 := by
    rw [Nat.testBit_eq_decide_div_mod_eq]
    rcases Nat.mod_two_eq_zero_or_one (e / 2 ^ i) with h | h <;> simp [h]
  rw [h, pow_succ, Nat.mod_mul]
  omega

/-- Everything the power loop does: from t, i bits of e on. -/
theorem powLoop_val (a : Fe) (e i : Nat) (t : Fe) :
    (powLoop a e i t).val = t.val ^ 2 ^ i * a.val ^ (e % 2 ^ i) % fieldPrime := by
  induction i generalizing t with
  | zero => simp [powLoop, Nat.mod_one, Nat.mod_eq_of_lt t.isLt]
  | succ i ih =>
    have square : (fmul t t).val ≡ t.val * t.val [MOD fieldPrime] := Nat.mod_modEq _ _
    rw [powLoop, ih, mod_two_pow_succ, pow_add a.val, pow_mul a.val, pow_succ 2 i, mul_comm (2 ^ i) 2, pow_mul t.val,
      sq, ← mul_assoc]
    refine Nat.ModEq.mul_right _ ?_
    cases e.testBit i
    · simpa using square.pow (2 ^ i)
    · have multiply : (fmul (fmul t t) a).val ≡ (t.val * t.val) * a.val [MOD fieldPrime] :=
        (Nat.mod_modEq _ _).trans (square.mul_right _)
      simpa [mul_pow] using multiply.pow (2 ^ i)

theorem lt_two_pow_bitlength (v : Nat) : v < 2 ^ bitlength v := by
  unfold bitlength
  split
  · simp_all
  · exact Nat.lt_log2_self

/-- fpow is exponentiation modulo p. -/
theorem fpow_val (a : Fe) (e : Nat) : (fpow a e).val = a.val ^ e % fieldPrime := by
  have h1 : (Fe.ofNat 1).val = 1 := by decide +kernel
  rw [fpow, powLoop_val, h1, one_pow, one_mul, Nat.mod_eq_of_lt (lt_two_pow_bitlength e)]

theorem finv_val (a : Fe) : (finv a).val = a.val ^ (fieldPrime - 2) % fieldPrime := fpow_val a _

end Sys2Proof.Machine
end

