-- ==== Sys2Proof/Laws/Flags.lean ====
section
/-! SUPPORT. The small lemmas of STATUS: the fields of a STATUS made of fields, and of each way it changes. -/

namespace Sys2Proof.Machine

@[simp] theorem statusBusy_mkStatus (b d e : Bool) (c : BitVec 4) : statusBusy (mkStatus b d e c) = b := by
  revert b d e c; decide +kernel

@[simp] theorem statusDone_mkStatus (b d e : Bool) (c : BitVec 4) : statusDone (mkStatus b d e c) = d := by
  revert b d e c; decide +kernel

@[simp] theorem statusEstk_mkStatus (b d e : Bool) (c : BitVec 4) : statusEstk (mkStatus b d e c) = e := by
  revert b d e c; decide +kernel

@[simp] theorem statusCode_mkStatus (b d e : Bool) (c : BitVec 4) : statusCode (mkStatus b d e c) = c := by
  revert b d e c; decide +kernel

@[simp] theorem shownStatus_mkStatus (b d e : Bool) (c : BitVec 4) :
    shownStatus (mkStatus b d e c) = mkStatus b d e c := by
  simp [shownStatus]

theorem okCode_eq : okCode = 0#4 := rfl

/-- An error's code is 1 to 7. -/
theorem errCode_range (e : Err) : 1 ≤ (errCode e).toNat ∧ (errCode e).toNat ≤ 7 := by
  cases e <;> decide

@[simp] theorem errCode_ne_zero (e : Err) : errCode e ≠ 0#4 := by
  cases e <;> decide

theorem errCode_injective : Function.Injective errCode := by
  intro e e' h; revert h; cases e <;> cases e' <;> decide

@[simp] theorem completedStatus_ok (st : Word) :
    completedStatus okCode st = mkStatus false true (statusEstk st) 0 := by
  simp [completedStatus, okCode]

@[simp] theorem completedStatus_err (e : Err) (st : Word) :
    completedStatus (errCode e) st = mkStatus false true true (errCode e) := by
  cases e <;> simp [completedStatus, errCode]

end Sys2Proof.Machine
end

