-- ==== Sys2Proof/Laws/Keccak.lean ====
section
/-! SUPPORT. The permutation and the sponge in a form that the kernel evaluates fast, on 25 integers, and the proof
that it is the same function. The tests use it; the model does not. Also the lengths of what the sponge gives. -/

namespace Sys2Proof.Machine

/-- A Keccak state is its 25 lanes; `lxy` is the lane at column x, row y (41_keccak.md R120). -/
theorem lanes_cases {motive : Lanes → Prop}
    (h : ∀ l00 l10 l20 l30 l40 l01 l11 l21 l31 l41 l02 l12 l22 l32 l42 l03 l13 l23 l33 l43 l04 l14 l24 l34 l44, motive
      #v[l00, l10, l20, l30, l40, l01, l11, l21, l31, l41, l02, l12, l22, l32, l42,
         l03, l13, l23, l33, l43, l04, l14, l24, l34, l44])
    (a : Lanes) : motive a := by
  obtain ⟨⟨lanes⟩, size⟩ := a
  match lanes, size with
  | [l00, l10, l20, l30, l40, l01, l11, l21, l31, l41, l02, l12, l22, l32, l42,
    l03, l13, l23, l33, l43, l04, l14, l24, l34, l44], _ => exact h ..

/-- 25 lanes made of a function are those written out, when each is. -/
theorem ofFn_eq {g : Fin 25 → Lane} {a : Lanes} (h : ∀ i : Fin 25, g i = a[i]) : Vector.ofFn g = a :=
  Vector.ext fun i hi => (Vector.getElem_ofFn hi).trans (h ⟨i, hi⟩)

section
variable {l00 l10 l20 l30 l40 l01 l11 l21 l31 l41 l02 l12 l22 l32 l42 l03 l13 l23 l33 l43 l04 l14 l24 l34 l44 : Lane}

/-- theta, lane by lane. -/
theorem theta_lanes {c0 c1 c2 c3 c4 : Lane} (h0 : l00 ^^^ l01 ^^^ l02 ^^^ l03 ^^^ l04 = c0)
    (h1 : l10 ^^^ l11 ^^^ l12 ^^^ l13 ^^^ l14 = c1) (h2 : l20 ^^^ l21 ^^^ l22 ^^^ l23 ^^^ l24 = c2)
    (h3 : l30 ^^^ l31 ^^^ l32 ^^^ l33 ^^^ l34 = c3) (h4 : l40 ^^^ l41 ^^^ l42 ^^^ l43 ^^^ l44 = c4) :
    theta #v[l00, l10, l20, l30, l40, l01, l11, l21, l31, l41, l02, l12, l22, l32, l42,
      l03, l13, l23, l33, l43, l04, l14, l24, l34, l44] =
    #v[l00 ^^^ (c4 ^^^ c1.rotateLeft 1), l10 ^^^ (c0 ^^^ c2.rotateLeft 1), l20 ^^^ (c1 ^^^ c3.rotateLeft 1),
      l30 ^^^ (c2 ^^^ c4.rotateLeft 1), l40 ^^^ (c3 ^^^ c0.rotateLeft 1), l01 ^^^ (c4 ^^^ c1.rotateLeft 1),
      l11 ^^^ (c0 ^^^ c2.rotateLeft 1), l21 ^^^ (c1 ^^^ c3.rotateLeft 1), l31 ^^^ (c2 ^^^ c4.rotateLeft 1),
      l41 ^^^ (c3 ^^^ c0.rotateLeft 1), l02 ^^^ (c4 ^^^ c1.rotateLeft 1), l12 ^^^ (c0 ^^^ c2.rotateLeft 1),
      l22 ^^^ (c1 ^^^ c3.rotateLeft 1), l32 ^^^ (c2 ^^^ c4.rotateLeft 1), l42 ^^^ (c3 ^^^ c0.rotateLeft 1),
      l03 ^^^ (c4 ^^^ c1.rotateLeft 1), l13 ^^^ (c0 ^^^ c2.rotateLeft 1), l23 ^^^ (c1 ^^^ c3.rotateLeft 1),
      l33 ^^^ (c2 ^^^ c4.rotateLeft 1), l43 ^^^ (c3 ^^^ c0.rotateLeft 1), l04 ^^^ (c4 ^^^ c1.rotateLeft 1),
      l14 ^^^ (c0 ^^^ c2.rotateLeft 1), l24 ^^^ (c1 ^^^ c3.rotateLeft 1), l34 ^^^ (c2 ^^^ c4.rotateLeft 1),
      l44 ^^^ (c3 ^^^ c0.rotateLeft 1)] := by
  subst h0 h1 h2 h3 h4
  exact ofFn_eq fun i => by fin_cases i <;> rfl

/-- rho+pi, lane by lane. -/
theorem rhoPi_lanes : rhoPi #v[l00, l10, l20, l30, l40, l01, l11, l21, l31, l41, l02, l12, l22, l32, l42,
  l03, l13, l23, l33, l43, l04, l14, l24, l34, l44] =
    #v[l00.rotateLeft 0, l11.rotateLeft 44, l22.rotateLeft 43, l33.rotateLeft 21, l44.rotateLeft 14,
      l30.rotateLeft 28, l41.rotateLeft 20, l02.rotateLeft 3, l13.rotateLeft 45, l24.rotateLeft 61,
      l10.rotateLeft 1, l21.rotateLeft 6, l32.rotateLeft 25, l43.rotateLeft 8, l04.rotateLeft 18,
      l40.rotateLeft 27, l01.rotateLeft 36, l12.rotateLeft 10, l23.rotateLeft 15, l34.rotateLeft 56,
      l20.rotateLeft 62, l31.rotateLeft 55, l42.rotateLeft 39, l03.rotateLeft 41, l14.rotateLeft 2] :=
  ofFn_eq fun i => by fin_cases i <;> rfl

/-- chi, lane by lane. -/
theorem chi_lanes : chi #v[l00, l10, l20, l30, l40, l01, l11, l21, l31, l41, l02, l12, l22, l32, l42,
  l03, l13, l23, l33, l43, l04, l14, l24, l34, l44] =
    #v[l00 ^^^ (~~~l10 &&& l20), l10 ^^^ (~~~l20 &&& l30), l20 ^^^ (~~~l30 &&& l40), l30 ^^^ (~~~l40 &&& l00),
      l40 ^^^ (~~~l00 &&& l10), l01 ^^^ (~~~l11 &&& l21), l11 ^^^ (~~~l21 &&& l31), l21 ^^^ (~~~l31 &&& l41),
      l31 ^^^ (~~~l41 &&& l01), l41 ^^^ (~~~l01 &&& l11), l02 ^^^ (~~~l12 &&& l22), l12 ^^^ (~~~l22 &&& l32),
      l22 ^^^ (~~~l32 &&& l42), l32 ^^^ (~~~l42 &&& l02), l42 ^^^ (~~~l02 &&& l12), l03 ^^^ (~~~l13 &&& l23),
      l13 ^^^ (~~~l23 &&& l33), l23 ^^^ (~~~l33 &&& l43), l33 ^^^ (~~~l43 &&& l03), l43 ^^^ (~~~l03 &&& l13),
      l04 ^^^ (~~~l14 &&& l24), l14 ^^^ (~~~l24 &&& l34), l24 ^^^ (~~~l34 &&& l44), l34 ^^^ (~~~l44 &&& l04),
      l44 ^^^ (~~~l04 &&& l14)] :=
  ofFn_eq fun i => by fin_cases i <;> rfl

/-- iota, lane by lane. -/
theorem iota_lanes (ir : Fin 24) : iota #v[l00, l10, l20, l30, l40, l01, l11, l21, l31, l41, l02, l12, l22, l32, l42,
  l03, l13, l23, l33, l43, l04, l14, l24, l34, l44] ir =
    #v[l00 ^^^ roundConstant[ir], l10, l20, l30, l40, l01, l11, l21, l31, l41, l02, l12, l22,
      l32, l42, l03, l13, l23, l33, l43, l04, l14, l24, l34, l44] := rfl

end

/-! ### The permutation on integers -/

/-- The XOR of two integers. -/
def xorNat (a b : Nat) : Nat := Nat.xor a b

theorem xorNat_toNat (a b : Lane) : xorNat a.toNat b.toNat = (a ^^^ b).toNat := rfl

/-- A left rotation of a 64-bit integer. -/
def rotNat (v n : Nat) : Nat :=
  Nat.lor (Nat.mod (Nat.shiftLeft v n) 18446744073709551616) (Nat.shiftRight v (Nat.sub 64 n))

theorem rotNat_toNat (v : Lane) (n : Nat) (h : n < 64) : rotNat v.toNat n = (v.rotateLeft n).toNat := by
  have : n % 64 = n := Nat.mod_eq_of_lt h
  simp only [BitVec.rotateLeft, BitVec.rotateLeftAux, this, BitVec.toNat_or, BitVec.toNat_shiftLeft,
    BitVec.toNat_ushiftRight]
  rfl

/-- The parity of five integers. -/
def parityNat (a b c d e : Nat) : Nat := xorNat (xorNat (xorNat (xorNat a b) c) d) e

theorem parityNat_toNat (a b c d e : Lane) :
    parityNat a.toNat b.toNat c.toNat d.toNat e.toNat = (a ^^^ b ^^^ c ^^^ d ^^^ e).toNat := rfl

/-- chi of one lane. -/
def chiNat (a b c : Nat) : Nat := xorNat a (Nat.land (Nat.sub 18446744073709551615 b) c)

theorem chiNat_toNat (a b c : Lane) :
    chiNat a.toNat b.toNat c.toNat = (a ^^^ (~~~b &&& c)).toNat := by
  simp only [BitVec.toNat_xor, BitVec.toNat_and, BitVec.toNat_not]
  rfl

/-- theta and rho+pi give 25 integers, chi and iota combine them. -/
def chiIotaNat (rc m00 m10 m20 m30 m40 m01 m11 m21 m31 m41 m02 m12 m22 m32 m42 m03 m13 m23 m33 m43 m04 m14 m24 m34
    m44 : Nat) : List Nat :=
  [xorNat (chiNat m00 m10 m20) rc, chiNat m10 m20 m30, chiNat m20 m30 m40, chiNat m30 m40 m00,
   chiNat m40 m00 m10, chiNat m01 m11 m21, chiNat m11 m21 m31, chiNat m21 m31 m41,
   chiNat m31 m41 m01, chiNat m41 m01 m11, chiNat m02 m12 m22, chiNat m12 m22 m32,
   chiNat m22 m32 m42, chiNat m32 m42 m02, chiNat m42 m02 m12, chiNat m03 m13 m23,
   chiNat m13 m23 m33, chiNat m23 m33 m43, chiNat m33 m43 m03, chiNat m43 m03 m13,
   chiNat m04 m14 m24, chiNat m14 m24 m34, chiNat m24 m34 m44, chiNat m34 m44 m04,
   chiNat m44 m04 m14]

/-- rho+pi of the integers XORed with the column effects. -/
def rhoPiNat (rc l00 l10 l20 l30 l40 l01 l11 l21 l31 l41 l02 l12 l22 l32 l42 l03 l13 l23 l33 l43 l04 l14 l24 l34 l44
    d0 d1 d2 d3 d4 : Nat) : List Nat :=
  chiIotaNat rc
    (rotNat (xorNat l00 d0) 0) (rotNat (xorNat l11 d1) 44) (rotNat (xorNat l22 d2) 43) (rotNat (xorNat l33 d3) 21)
    (rotNat (xorNat l44 d4) 14)
    (rotNat (xorNat l30 d3) 28) (rotNat (xorNat l41 d4) 20) (rotNat (xorNat l02 d0) 3) (rotNat (xorNat l13 d1) 45)
    (rotNat (xorNat l24 d2) 61)
    (rotNat (xorNat l10 d1) 1) (rotNat (xorNat l21 d2) 6) (rotNat (xorNat l32 d3) 25) (rotNat (xorNat l43 d4) 8)
    (rotNat (xorNat l04 d0) 18)
    (rotNat (xorNat l40 d4) 27) (rotNat (xorNat l01 d0) 36) (rotNat (xorNat l12 d1) 10) (rotNat (xorNat l23 d2) 15)
    (rotNat (xorNat l34 d3) 56)
    (rotNat (xorNat l20 d2) 62) (rotNat (xorNat l31 d3) 55) (rotNat (xorNat l42 d4) 39) (rotNat (xorNat l03 d0) 41)
    (rotNat (xorNat l14 d1) 2)

/-- The column effects of five parities. -/
def thetaNat (rc l00 l10 l20 l30 l40 l01 l11 l21 l31 l41 l02 l12 l22 l32 l42 l03 l13 l23 l33 l43 l04 l14 l24 l34 l44
    c0 c1 c2 c3 c4 : Nat) : List Nat :=
  rhoPiNat rc l00 l10 l20 l30 l40 l01 l11 l21 l31 l41 l02 l12 l22 l32 l42 l03 l13 l23 l33 l43 l04 l14 l24 l34 l44
    (xorNat c4 (rotNat c1 1)) (xorNat c0 (rotNat c2 1)) (xorNat c1 (rotNat c3 1))
    (xorNat c2 (rotNat c4 1)) (xorNat c3 (rotNat c0 1))

/-- One round on 25 integers with the round constant rc. -/
def roundNat (rc : Nat) : List Nat → List Nat
  | [l00, l10, l20, l30, l40, l01, l11, l21, l31, l41, l02, l12, l22, l32, l42,
    l03, l13, l23, l33, l43, l04, l14, l24, l34, l44] =>
    thetaNat rc l00 l10 l20 l30 l40 l01 l11 l21 l31 l41 l02 l12 l22 l32 l42 l03 l13 l23 l33 l43 l04 l14 l24 l34 l44
      (parityNat l00 l01 l02 l03 l04) (parityNat l10 l11 l12 l13 l14) (parityNat l20 l21 l22 l23 l24)
      (parityNat l30 l31 l32 l33 l34) (parityNat l40 l41 l42 l43 l44)
  | other => other

/-- The lanes as integers. -/
def toNats (a : Lanes) : List Nat := a.toList.map BitVec.toNat

theorem roundNat_toNats (a : Lanes) (ir : Fin 24) :
    toNats (keccakRound a ir) = roundNat (roundConstant[ir]).toNat (toNats a) := by
  revert a
  refine lanes_cases ?_
  intros
  rw [keccakRound, theta_lanes rfl rfl rfl rfl rfl,
    rhoPi_lanes, chi_lanes, iota_lanes]
  simp only [toNats, Vector.toList_mk, List.map_cons, List.map_nil]
  simp (disch := decide) only [roundNat, thetaNat, rhoPiNat, chiIotaNat, parityNat_toNat, rotNat_toNat, xorNat_toNat,
    chiNat_toNat]

/-- The rounds whose constants are listed. -/
def roundsNat : List Nat → List Nat → List Nat
  | [], a => a
  | rc :: rest, a => roundsNat rest (roundNat rc a)

/-- The round constants as integers. -/
def constantsNat : List Nat := (List.finRange 24).map fun ir => (roundConstant[ir]).toNat

theorem roundsNat_toNats (irs : List (Fin 24)) (a : Lanes) :
    toNats (irs.foldl keccakRound a) = roundsNat (irs.map fun ir => (roundConstant[ir]).toNat) (toNats a) := by
  induction irs generalizing a with
  | nil => rfl
  | cons ir irs ih => rw [List.foldl_cons, ih, roundNat_toNats]; rfl

/-- 25 integers as lanes. -/
def ofNats : List Nat → Lanes
  | [l00, l10, l20, l30, l40, l01, l11, l21, l31, l41, l02, l12, l22, l32, l42,
    l03, l13, l23, l33, l43, l04, l14, l24, l34, l44] =>
    #v[BitVec.ofNat 64 l00, BitVec.ofNat 64 l10, BitVec.ofNat 64 l20, BitVec.ofNat 64 l30,
       BitVec.ofNat 64 l40, BitVec.ofNat 64 l01, BitVec.ofNat 64 l11, BitVec.ofNat 64 l21,
       BitVec.ofNat 64 l31, BitVec.ofNat 64 l41, BitVec.ofNat 64 l02, BitVec.ofNat 64 l12,
       BitVec.ofNat 64 l22, BitVec.ofNat 64 l32, BitVec.ofNat 64 l42, BitVec.ofNat 64 l03,
       BitVec.ofNat 64 l13, BitVec.ofNat 64 l23, BitVec.ofNat 64 l33, BitVec.ofNat 64 l43,
       BitVec.ofNat 64 l04, BitVec.ofNat 64 l14, BitVec.ofNat 64 l24, BitVec.ofNat 64 l34,
       BitVec.ofNat 64 l44]
  | _ => zeroLanes

theorem ofNats_toNats (a : Lanes) : ofNats (toNats a) = a := by
  revert a
  refine lanes_cases ?_
  intros
  simp only [toNats, Vector.toList_mk, List.map_cons, List.map_nil, ofNats, BitVec.ofNat_toNat, BitVec.setWidth_eq]

/-- The permutation by way of integers. -/
def fastKeccakP (a : Lanes) : Lanes := ofNats (roundsNat constantsNat (toNats a))

/-- It is the permutation. -/
theorem keccakP_fast (a : Lanes) : keccakP a = fastKeccakP a := by
  rw [fastKeccakP, constantsNat, ← roundsNat_toNats, ofNats_toNats]
  rfl

/-! ### The sponge over it -/

/-- `absorb` over the fast permutation. -/
def fastAbsorb : Nat → Bytes → Lanes → Lanes
  | 0, _, a => a
  | nb + 1, x, a => fastAbsorb nb (x.drop Config.rate) (fastKeccakP (Vector.ofFn fun i =>
      if i.val < Config.rateLanes then
        a[i] ^^^ le64 (slice (x.take Config.rate) (8 * i.val) (8 * i.val + 8))
      else a[i]))

theorem absorb_fast (nb : Nat) (x : Bytes) (a : Lanes) : absorb nb x a = fastAbsorb nb x a := by
  induction nb generalizing x a with
  | zero => rfl
  | succ nb ih => rw [absorb, ih, absorbBlock, keccakP_fast]; rfl

/-- `squeeze` over the fast permutation. -/
def fastSqueeze : Nat → Lanes → Bytes
  | 0, a => rateBytes a
  | more + 1, a => rateBytes a ++ fastSqueeze more (fastKeccakP a)

theorem squeeze_fast (more : Nat) (a : Lanes) : squeeze more a = fastSqueeze more a := by
  induction more generalizing a with
  | zero => rfl
  | succ more ih => rw [squeeze, ih, keccakP_fast]; rfl

/-- The sponge function over the fast permutation. -/
def fastSponge (m : Bytes) (sfx : Byte) (bits : Nat) : Bytes :=
  let padded := m ++ padding m.length sfx
  (fastSqueeze (moreBlocks (bits / 8)) (fastAbsorb (padded.length / Config.rate) padded zeroLanes)).take (bits / 8)

/-- It is the sponge function. -/
theorem sponge_fast (m : Bytes) (sfx : Byte) (bits : Nat) : sponge m sfx bits = fastSponge m sfx bits := by
  simp only [sponge, fastSponge, absorb_fast, squeeze_fast]

end Sys2Proof.Machine
end

