-- ==== Sys2Proof/Laws/Operands.lean ====
section
/-! SUPPORT. Integers and byte strings (00_scope.md R17): lengths, and that OS2IP and I2OSP undo each other. -/

namespace Sys2Proof.Machine

@[simp] theorem i2osp_length (v n : Nat) : (i2osp v n).length = n := by
  induction n generalizing v with
  | zero => rfl
  | succ n ih => simp [i2osp, ih]

@[simp] theorem os2ip_nil : os2ip [] = 0 := rfl

theorem os2ip_append_singleton (x : Bytes) (byte : Byte) : os2ip (x ++ [byte]) = os2ip x * 256 + byte.toNat := by
  simp [os2ip]

/-- OS2IP after I2OSP is the residue modulo 256^n. -/
theorem os2ip_i2osp (v n : Nat) : os2ip (i2osp v n) = v % 256 ^ n := by
  induction n generalizing v with
  | zero => simp [i2osp, Nat.mod_one]
  | succ n ih =>
    rw [i2osp, os2ip_append_singleton, ih, pow_succ, mul_comm (256 ^ n) 256, Nat.mod_mul]
    simp
    omega

/-- A byte string of n bytes is below 256^n. -/
theorem os2ip_lt (x : Bytes) : os2ip x < 256 ^ x.length := by
  induction x using List.reverseRecOn with
  | nil => simp
  | append_singleton x byte ih =>
    rw [os2ip_append_singleton, List.length_append, List.length_singleton, pow_succ]
    have := byte.isLt
    omega

/-- I2OSP at a string's own length undoes OS2IP. -/
theorem i2osp_os2ip (x : Bytes) : i2osp (os2ip x) x.length = x := by
  induction x using List.reverseRecOn with
  | nil => rfl
  | append_singleton x byte ih =>
    have hb := byte.isLt
    rw [os2ip_append_singleton, List.length_append, List.length_singleton, i2osp]
    have hdiv : (os2ip x * 256 + byte.toNat) / 256 = os2ip x := by omega
    rw [hdiv, ih]
    congr 2
    apply BitVec.eq_of_toNat_eq
    simp
    omega

@[simp] theorem le64inv_length (v : Lane) : (le64inv v).length = 8 := by simp [le64inv]

@[simp] theorem zeros_length (n : Nat) : (zeros n).length = n := by simp [zeros]

theorem slice_length (x : Bytes) (lo hi : Nat) : (slice x lo hi).length = min (hi - lo) (x.length - lo) := by
  simp [slice]

/-- A slice that lies in the first part of a concatenation. -/
theorem slice_append_left {x y : Bytes} {lo hi : Nat} (h : hi ≤ x.length) :
    slice (x ++ y) lo hi = slice x lo hi := by
  unfold slice
  by_cases hlo : lo ≤ x.length
  · rw [List.drop_append_of_le_length hlo, List.take_append_of_le_length (by simp; omega)]
  · have : hi - lo = 0 := by omega
    simp [this]

/-- A slice that lies in the second part of a concatenation. -/
theorem slice_append_right {x y : Bytes} {lo hi : Nat} (h : x.length ≤ lo) :
    slice (x ++ y) lo hi = slice y (lo - x.length) (hi - x.length) := by
  unfold slice
  have : hi - x.length - (lo - x.length) = hi - lo := by omega
  rw [List.drop_append, List.drop_eq_nil_of_le h, this, List.nil_append]

/-- The whole string as a slice. -/
theorem slice_all (x : Bytes) : slice x 0 x.length = x := by simp [slice]

@[simp] theorem xorBytes_length (x y : Bytes) : (xorBytes x y).length = min x.length y.length := by
  simp [xorBytes]

/-- XOR with the same string twice gives the text back. -/
theorem xorBytes_cancel {x y : Bytes} (h : y.length ≤ x.length) : xorBytes x (xorBytes x y) = y := by
  induction x generalizing y with
  | nil => cases y <;> simp_all [xorBytes]
  | cons a x ih =>
    cases y with
    | nil => simp [xorBytes]
    | cons b y =>
      have := ih (y := y) (by simpa using h)
      simp only [xorBytes, List.zipWith_cons_cons] at this ⊢
      rw [this, ← BitVec.xor_assoc, BitVec.xor_self, BitVec.zero_xor]

end Sys2Proof.Machine
end

