-- ==== Sys2Proof/Laws/State.lean ====
section
/-! SUPPORT. The small lemmas of the state: what each update does to each field, and reading a register after a
write. Later proofs use these and unfold no record update. -/

namespace Sys2Proof.Machine

variable (s : State)

/-! ### writeN -/

@[simp] theorem State.writeN_b (i : Idx8) (v : BitVec 64) : (s.writeN i v).b = s.b := rfl
@[simp] theorem State.writeN_a (i : Idx8) (v : BitVec 64) : (s.writeN i v).a = s.a := rfl
@[simp] theorem State.writeN_f (i : Idx8) (v : BitVec 64) : (s.writeN i v).f = s.f := rfl
@[simp] theorem State.writeN_p (i : Idx8) (v : BitVec 64) : (s.writeN i v).p = s.p := rfl
@[simp] theorem State.writeN_k (i : Idx8) (v : BitVec 64) : (s.writeN i v).k = s.k := rfl
@[simp] theorem State.writeN_cmd (i : Idx8) (v : BitVec 64) : (s.writeN i v).cmd = s.cmd := rfl
@[simp] theorem State.writeN_status (i : Idx8) (v : BitVec 64) : (s.writeN i v).status = s.status := rfl
@[simp] theorem State.writeN_bsel (i : Idx8) (v : BitVec 64) : (s.writeN i v).bsel = s.bsel := rfl
@[simp] theorem State.writeN_bptr (i : Idx8) (v : BitVec 64) : (s.writeN i v).bptr = s.bptr := rfl
@[simp] theorem State.writeN_params (i : Idx8) (v : BitVec 64) : (s.writeN i v).params = s.params := rfl
@[simp] theorem State.writeN_inputs (i : Idx8) (v : BitVec 64) : (s.writeN i v).inputs = s.inputs := rfl
@[simp] theorem State.writeN_replies (i : Idx8) (v : BitVec 64) : (s.writeN i v).replies = s.replies := rfl

/-! ### writeB -/

@[simp] theorem State.writeB_n (i : Idx8) (x : Bytes) : (s.writeB i x).n = s.n := rfl
@[simp] theorem State.writeB_a (i : Idx8) (x : Bytes) : (s.writeB i x).a = s.a := rfl
@[simp] theorem State.writeB_f (i : Idx8) (x : Bytes) : (s.writeB i x).f = s.f := rfl
@[simp] theorem State.writeB_p (i : Idx8) (x : Bytes) : (s.writeB i x).p = s.p := rfl
@[simp] theorem State.writeB_k (i : Idx8) (x : Bytes) : (s.writeB i x).k = s.k := rfl
@[simp] theorem State.writeB_cmd (i : Idx8) (x : Bytes) : (s.writeB i x).cmd = s.cmd := rfl
@[simp] theorem State.writeB_status (i : Idx8) (x : Bytes) : (s.writeB i x).status = s.status := rfl
@[simp] theorem State.writeB_bsel (i : Idx8) (x : Bytes) : (s.writeB i x).bsel = s.bsel := rfl
@[simp] theorem State.writeB_bptr (i : Idx8) (x : Bytes) : (s.writeB i x).bptr = s.bptr := rfl
@[simp] theorem State.writeB_params (i : Idx8) (x : Bytes) : (s.writeB i x).params = s.params := rfl
@[simp] theorem State.writeB_inputs (i : Idx8) (x : Bytes) : (s.writeB i x).inputs = s.inputs := rfl
@[simp] theorem State.writeB_replies (i : Idx8) (x : Bytes) : (s.writeB i x).replies = s.replies := rfl

/-! ### writeA -/

@[simp] theorem State.writeA_n (a : Lanes) : (s.writeA a).n = s.n := rfl
@[simp] theorem State.writeA_b (a : Lanes) : (s.writeA a).b = s.b := rfl
@[simp] theorem State.writeA_f (a : Lanes) : (s.writeA a).f = s.f := rfl
@[simp] theorem State.writeA_p (a : Lanes) : (s.writeA a).p = s.p := rfl
@[simp] theorem State.writeA_k (a : Lanes) : (s.writeA a).k = s.k := rfl
@[simp] theorem State.writeA_cmd (a : Lanes) : (s.writeA a).cmd = s.cmd := rfl
@[simp] theorem State.writeA_status (a : Lanes) : (s.writeA a).status = s.status := rfl
@[simp] theorem State.writeA_bsel (a : Lanes) : (s.writeA a).bsel = s.bsel := rfl
@[simp] theorem State.writeA_bptr (a : Lanes) : (s.writeA a).bptr = s.bptr := rfl
@[simp] theorem State.writeA_params (a : Lanes) : (s.writeA a).params = s.params := rfl
@[simp] theorem State.writeA_inputs (a : Lanes) : (s.writeA a).inputs = s.inputs := rfl
@[simp] theorem State.writeA_replies (a : Lanes) : (s.writeA a).replies = s.replies := rfl

/-! ### writeF -/

@[simp] theorem State.writeF_n (i : Idx8) (v : Fe) : (s.writeF i v).n = s.n := rfl
@[simp] theorem State.writeF_b (i : Idx8) (v : Fe) : (s.writeF i v).b = s.b := rfl
@[simp] theorem State.writeF_a (i : Idx8) (v : Fe) : (s.writeF i v).a = s.a := rfl
@[simp] theorem State.writeF_p (i : Idx8) (v : Fe) : (s.writeF i v).p = s.p := rfl
@[simp] theorem State.writeF_k (i : Idx8) (v : Fe) : (s.writeF i v).k = s.k := rfl
@[simp] theorem State.writeF_cmd (i : Idx8) (v : Fe) : (s.writeF i v).cmd = s.cmd := rfl
@[simp] theorem State.writeF_status (i : Idx8) (v : Fe) : (s.writeF i v).status = s.status := rfl
@[simp] theorem State.writeF_bsel (i : Idx8) (v : Fe) : (s.writeF i v).bsel = s.bsel := rfl
@[simp] theorem State.writeF_bptr (i : Idx8) (v : Fe) : (s.writeF i v).bptr = s.bptr := rfl
@[simp] theorem State.writeF_params (i : Idx8) (v : Fe) : (s.writeF i v).params = s.params := rfl
@[simp] theorem State.writeF_inputs (i : Idx8) (v : Fe) : (s.writeF i v).inputs = s.inputs := rfl
@[simp] theorem State.writeF_replies (i : Idx8) (v : Fe) : (s.writeF i v).replies = s.replies := rfl

/-! ### writeP -/

@[simp] theorem State.writeP_n (i : Idx4) (v : Point) : (s.writeP i v).n = s.n := rfl
@[simp] theorem State.writeP_b (i : Idx4) (v : Point) : (s.writeP i v).b = s.b := rfl
@[simp] theorem State.writeP_a (i : Idx4) (v : Point) : (s.writeP i v).a = s.a := rfl
@[simp] theorem State.writeP_f (i : Idx4) (v : Point) : (s.writeP i v).f = s.f := rfl
@[simp] theorem State.writeP_k (i : Idx4) (v : Point) : (s.writeP i v).k = s.k := rfl
@[simp] theorem State.writeP_cmd (i : Idx4) (v : Point) : (s.writeP i v).cmd = s.cmd := rfl
@[simp] theorem State.writeP_status (i : Idx4) (v : Point) : (s.writeP i v).status = s.status := rfl
@[simp] theorem State.writeP_bsel (i : Idx4) (v : Point) : (s.writeP i v).bsel = s.bsel := rfl
@[simp] theorem State.writeP_bptr (i : Idx4) (v : Point) : (s.writeP i v).bptr = s.bptr := rfl
@[simp] theorem State.writeP_params (i : Idx4) (v : Point) : (s.writeP i v).params = s.params := rfl
@[simp] theorem State.writeP_inputs (i : Idx4) (v : Point) : (s.writeP i v).inputs = s.inputs := rfl
@[simp] theorem State.writeP_replies (i : Idx4) (v : Point) : (s.writeP i v).replies = s.replies := rfl

/-! ### writeK -/

@[simp] theorem State.writeK_n (i : Idx4) (v : BitVec 512) : (s.writeK i v).n = s.n := rfl
@[simp] theorem State.writeK_b (i : Idx4) (v : BitVec 512) : (s.writeK i v).b = s.b := rfl
@[simp] theorem State.writeK_a (i : Idx4) (v : BitVec 512) : (s.writeK i v).a = s.a := rfl
@[simp] theorem State.writeK_f (i : Idx4) (v : BitVec 512) : (s.writeK i v).f = s.f := rfl
@[simp] theorem State.writeK_p (i : Idx4) (v : BitVec 512) : (s.writeK i v).p = s.p := rfl
@[simp] theorem State.writeK_cmd (i : Idx4) (v : BitVec 512) : (s.writeK i v).cmd = s.cmd := rfl
@[simp] theorem State.writeK_status (i : Idx4) (v : BitVec 512) : (s.writeK i v).status = s.status := rfl
@[simp] theorem State.writeK_bsel (i : Idx4) (v : BitVec 512) : (s.writeK i v).bsel = s.bsel := rfl
@[simp] theorem State.writeK_bptr (i : Idx4) (v : BitVec 512) : (s.writeK i v).bptr = s.bptr := rfl
@[simp] theorem State.writeK_params (i : Idx4) (v : BitVec 512) : (s.writeK i v).params = s.params := rfl
@[simp] theorem State.writeK_inputs (i : Idx4) (v : BitVec 512) : (s.writeK i v).inputs = s.inputs := rfl
@[simp] theorem State.writeK_replies (i : Idx4) (v : BitVec 512) : (s.writeK i v).replies = s.replies := rfl

@[simp] theorem State.writeA_a (a : Lanes) : (s.writeA a).a = a := rfl

/-! ### accept -/

@[simp] theorem accept_n (w : Word) : (accept w s).n = s.n := rfl
@[simp] theorem accept_b (w : Word) : (accept w s).b = s.b := rfl
@[simp] theorem accept_a (w : Word) : (accept w s).a = s.a := rfl
@[simp] theorem accept_f (w : Word) : (accept w s).f = s.f := rfl
@[simp] theorem accept_p (w : Word) : (accept w s).p = s.p := rfl
@[simp] theorem accept_k (w : Word) : (accept w s).k = s.k := rfl
@[simp] theorem accept_cmd (w : Word) : (accept w s).cmd = w := rfl
@[simp] theorem accept_status (w : Word) : (accept w s).status = acceptedStatus s.status := rfl
@[simp] theorem accept_bsel (w : Word) : (accept w s).bsel = s.bsel := rfl
@[simp] theorem accept_bptr (w : Word) : (accept w s).bptr = s.bptr := rfl
@[simp] theorem accept_params (w : Word) : (accept w s).params = s.params := rfl
@[simp] theorem accept_inputs (w : Word) : (accept w s).inputs = s.inputs := rfl
@[simp] theorem accept_replies (w : Word) : (accept w s).replies = s.replies := rfl

/-! ### complete -/

@[simp] theorem complete_n : (complete s).n = s.n := rfl
@[simp] theorem complete_b : (complete s).b = s.b := rfl
@[simp] theorem complete_a : (complete s).a = s.a := rfl
@[simp] theorem complete_f : (complete s).f = s.f := rfl
@[simp] theorem complete_p : (complete s).p = s.p := rfl
@[simp] theorem complete_k : (complete s).k = s.k := rfl
@[simp] theorem complete_cmd : (complete s).cmd = s.cmd := rfl
@[simp] theorem complete_status : (complete s).status = completedStatus okCode s.status := rfl
@[simp] theorem complete_bsel : (complete s).bsel = s.bsel := rfl
@[simp] theorem complete_bptr : (complete s).bptr = s.bptr := rfl
@[simp] theorem complete_params : (complete s).params = s.params := rfl
@[simp] theorem complete_inputs : (complete s).inputs = s.inputs := rfl
@[simp] theorem complete_replies : (complete s).replies = s.replies := rfl

/-! ### raise -/

@[simp] theorem raise_n (e : Err) : (raise e s).n = s.n := rfl
@[simp] theorem raise_b (e : Err) : (raise e s).b = s.b := rfl
@[simp] theorem raise_a (e : Err) : (raise e s).a = s.a := rfl
@[simp] theorem raise_f (e : Err) : (raise e s).f = s.f := rfl
@[simp] theorem raise_p (e : Err) : (raise e s).p = s.p := rfl
@[simp] theorem raise_k (e : Err) : (raise e s).k = s.k := rfl
@[simp] theorem raise_cmd (e : Err) : (raise e s).cmd = s.cmd := rfl
@[simp] theorem raise_status (e : Err) : (raise e s).status = completedStatus (errCode e) s.status := rfl
@[simp] theorem raise_bsel (e : Err) : (raise e s).bsel = s.bsel := rfl
@[simp] theorem raise_bptr (e : Err) : (raise e s).bptr = s.bptr := rfl
@[simp] theorem raise_params (e : Err) : (raise e s).params = s.params := rfl
@[simp] theorem raise_inputs (e : Err) : (raise e s).inputs = s.inputs := rfl
@[simp] theorem raise_replies (e : Err) : (raise e s).replies = s.replies := rfl

/-! ### acknowledge -/

@[simp] theorem acknowledge_n (v : Word) : (acknowledge v s).n = s.n := rfl
@[simp] theorem acknowledge_b (v : Word) : (acknowledge v s).b = s.b := rfl
@[simp] theorem acknowledge_a (v : Word) : (acknowledge v s).a = s.a := rfl
@[simp] theorem acknowledge_f (v : Word) : (acknowledge v s).f = s.f := rfl
@[simp] theorem acknowledge_p (v : Word) : (acknowledge v s).p = s.p := rfl
@[simp] theorem acknowledge_k (v : Word) : (acknowledge v s).k = s.k := rfl
@[simp] theorem acknowledge_cmd (v : Word) : (acknowledge v s).cmd = s.cmd := rfl
@[simp] theorem acknowledge_status (v : Word) : (acknowledge v s).status = clearedStatus v s.status := rfl
@[simp] theorem acknowledge_bsel (v : Word) : (acknowledge v s).bsel = s.bsel := rfl
@[simp] theorem acknowledge_bptr (v : Word) : (acknowledge v s).bptr = s.bptr := rfl
@[simp] theorem acknowledge_params (v : Word) : (acknowledge v s).params = s.params := rfl
@[simp] theorem acknowledge_inputs (v : Word) : (acknowledge v s).inputs = s.inputs := rfl
@[simp] theorem acknowledge_replies (v : Word) : (acknowledge v s).replies = s.replies := rfl

/-! ### Reading after writing -/

@[simp] theorem State.readN_writeN (i j : Idx8) (v : BitVec 64) :
    (s.writeN i v).readN j = if j = i then v else s.readN j := by
  by_cases h : j = i
  · subst h; simp [State.readN, State.writeN]
  · have : (i : Nat) ≠ j := fun e => h (Fin.ext e.symm)
    simp [State.readN, State.writeN, h, Vector.getElem_set_ne _ _ this]

@[simp] theorem State.readB_writeB (i j : Idx8) (x : Bytes) :
    (s.writeB i x).readB j = if j = i then x else s.readB j := by
  by_cases h : j = i
  · subst h; simp [State.readB, State.writeB]
  · have : (i : Nat) ≠ j := fun e => h (Fin.ext e.symm)
    simp [State.readB, State.writeB, h, Vector.getElem_set_ne _ _ this]

@[simp] theorem State.readF_writeF (i j : Idx8) (v : Fe) :
    (s.writeF i v).readF j = if j = i then v else s.readF j := by
  by_cases h : j = i
  · subst h; simp [State.readF, State.writeF]
  · have : (i : Nat) ≠ j := fun e => h (Fin.ext e.symm)
    simp [State.readF, State.writeF, h, Vector.getElem_set_ne _ _ this]

@[simp] theorem State.readP_writeP (i j : Idx4) (v : Point) :
    (s.writeP i v).readP j = if j = i then v else s.readP j := by
  by_cases h : j = i
  · subst h; simp [State.readP, State.writeP]
  · have : (i : Nat) ≠ j := fun e => h (Fin.ext e.symm)
    simp [State.readP, State.writeP, h, Vector.getElem_set_ne _ _ this]

@[simp] theorem State.readK_writeK (i j : Idx4) (v : BitVec 512) :
    (s.writeK i v).readK j = if j = i then v else s.readK j := by
  by_cases h : j = i
  · subst h; simp [State.readK, State.writeK]
  · have : (i : Nat) ≠ j := fun e => h (Fin.ext e.symm)
    simp [State.readK, State.writeK, h, Vector.getElem_set_ne _ _ this]

@[simp] theorem State.readN_writeB (j : Idx8) (i : Idx8) (x : Bytes) : (s.writeB i x).readN j = s.readN j := rfl
@[simp] theorem State.readN_writeA (j : Idx8) (a : Lanes) : (s.writeA a).readN j = s.readN j := rfl
@[simp] theorem State.readN_writeF (j : Idx8) (i : Idx8) (v : Fe) : (s.writeF i v).readN j = s.readN j := rfl
@[simp] theorem State.readN_writeP (j : Idx8) (i : Idx4) (v : Point) : (s.writeP i v).readN j = s.readN j := rfl
@[simp] theorem State.readN_writeK (j : Idx8) (i : Idx4) (v : BitVec 512) : (s.writeK i v).readN j = s.readN j := rfl
@[simp] theorem State.readN_accept (j : Idx8) (w : Word) : (accept w s).readN j = s.readN j := rfl
@[simp] theorem State.readN_complete (j : Idx8) : (complete s).readN j = s.readN j := rfl
@[simp] theorem State.readN_raise (j : Idx8) (e : Err) : (raise e s).readN j = s.readN j := rfl
@[simp] theorem State.readN_acknowledge (j : Idx8) (v : Word) : (acknowledge v s).readN j = s.readN j := rfl

@[simp] theorem State.readB_writeN (j : Idx8) (i : Idx8) (v : BitVec 64) : (s.writeN i v).readB j = s.readB j := rfl
@[simp] theorem State.readB_writeA (j : Idx8) (a : Lanes) : (s.writeA a).readB j = s.readB j := rfl
@[simp] theorem State.readB_writeF (j : Idx8) (i : Idx8) (v : Fe) : (s.writeF i v).readB j = s.readB j := rfl
@[simp] theorem State.readB_writeP (j : Idx8) (i : Idx4) (v : Point) : (s.writeP i v).readB j = s.readB j := rfl
@[simp] theorem State.readB_writeK (j : Idx8) (i : Idx4) (v : BitVec 512) : (s.writeK i v).readB j = s.readB j := rfl
@[simp] theorem State.readB_accept (j : Idx8) (w : Word) : (accept w s).readB j = s.readB j := rfl
@[simp] theorem State.readB_complete (j : Idx8) : (complete s).readB j = s.readB j := rfl
@[simp] theorem State.readB_raise (j : Idx8) (e : Err) : (raise e s).readB j = s.readB j := rfl
@[simp] theorem State.readB_acknowledge (j : Idx8) (v : Word) : (acknowledge v s).readB j = s.readB j := rfl

@[simp] theorem State.readF_writeN (j : Idx8) (i : Idx8) (v : BitVec 64) : (s.writeN i v).readF j = s.readF j := rfl
@[simp] theorem State.readF_writeB (j : Idx8) (i : Idx8) (x : Bytes) : (s.writeB i x).readF j = s.readF j := rfl
@[simp] theorem State.readF_writeA (j : Idx8) (a : Lanes) : (s.writeA a).readF j = s.readF j := rfl
@[simp] theorem State.readF_writeP (j : Idx8) (i : Idx4) (v : Point) : (s.writeP i v).readF j = s.readF j := rfl
@[simp] theorem State.readF_writeK (j : Idx8) (i : Idx4) (v : BitVec 512) : (s.writeK i v).readF j = s.readF j := rfl
@[simp] theorem State.readF_accept (j : Idx8) (w : Word) : (accept w s).readF j = s.readF j := rfl
@[simp] theorem State.readF_complete (j : Idx8) : (complete s).readF j = s.readF j := rfl
@[simp] theorem State.readF_raise (j : Idx8) (e : Err) : (raise e s).readF j = s.readF j := rfl
@[simp] theorem State.readF_acknowledge (j : Idx8) (v : Word) : (acknowledge v s).readF j = s.readF j := rfl

@[simp] theorem State.readP_writeN (j : Idx4) (i : Idx8) (v : BitVec 64) : (s.writeN i v).readP j = s.readP j := rfl
@[simp] theorem State.readP_writeB (j : Idx4) (i : Idx8) (x : Bytes) : (s.writeB i x).readP j = s.readP j := rfl
@[simp] theorem State.readP_writeA (j : Idx4) (a : Lanes) : (s.writeA a).readP j = s.readP j := rfl
@[simp] theorem State.readP_writeF (j : Idx4) (i : Idx8) (v : Fe) : (s.writeF i v).readP j = s.readP j := rfl
@[simp] theorem State.readP_writeK (j : Idx4) (i : Idx4) (v : BitVec 512) : (s.writeK i v).readP j = s.readP j := rfl
@[simp] theorem State.readP_accept (j : Idx4) (w : Word) : (accept w s).readP j = s.readP j := rfl
@[simp] theorem State.readP_complete (j : Idx4) : (complete s).readP j = s.readP j := rfl
@[simp] theorem State.readP_raise (j : Idx4) (e : Err) : (raise e s).readP j = s.readP j := rfl
@[simp] theorem State.readP_acknowledge (j : Idx4) (v : Word) : (acknowledge v s).readP j = s.readP j := rfl

@[simp] theorem State.readK_writeN (j : Idx4) (i : Idx8) (v : BitVec 64) : (s.writeN i v).readK j = s.readK j := rfl
@[simp] theorem State.readK_writeB (j : Idx4) (i : Idx8) (x : Bytes) : (s.writeB i x).readK j = s.readK j := rfl
@[simp] theorem State.readK_writeA (j : Idx4) (a : Lanes) : (s.writeA a).readK j = s.readK j := rfl
@[simp] theorem State.readK_writeF (j : Idx4) (i : Idx8) (v : Fe) : (s.writeF i v).readK j = s.readK j := rfl
@[simp] theorem State.readK_writeP (j : Idx4) (i : Idx4) (v : Point) : (s.writeP i v).readK j = s.readK j := rfl
@[simp] theorem State.readK_accept (j : Idx4) (w : Word) : (accept w s).readK j = s.readK j := rfl
@[simp] theorem State.readK_complete (j : Idx4) : (complete s).readK j = s.readK j := rfl
@[simp] theorem State.readK_raise (j : Idx4) (e : Err) : (raise e s).readK j = s.readK j := rfl
@[simp] theorem State.readK_acknowledge (j : Idx4) (v : Word) : (acknowledge v s).readK j = s.readK j := rfl

/-- The bytes of buffers other than the written one are unchanged. -/
@[simp] theorem State.byteAt_writeB (i j : Idx8) (x : Bytes) (m : Nat) :
    (s.writeB i x).byteAt j m = if j = i then x[m]? else s.byteAt j m := by
  by_cases h : j = i <;> simp [State.byteAt, h]

end Sys2Proof.Machine
end

