-- ==== Sys2Proof/Laws/Ops.lean ====
section
/-! SUPPORT. What the shared operations can do, said once: completing, failing, committing (30_encoding.md R89,
60_exceptions.md R262), and that writes keep the form of the buffer space. -/

namespace Sys2Proof.Machine

/-- A completed command's STATUS, for any state reached with the old STATUS. -/
theorem complete_completedOk {s t : State} (h : t.status = s.status) : CompletedOk s (complete t) := by
  refine ⟨?_, ?_, ?_, ?_, ?_⟩ <;> simp [h, okCode_eq.symm]

/-- A failed command leaves everything but STATUS. -/
theorem raise_failedWith (e : Err) (s : State) : FailedWith e s (raise e s) := by
  simp [FailedWith, raise]

/-- A failed class-S command leaves everything but STATUS and A, which is 0. -/
theorem raise_writeA_failedWith (e : Err) (s : State) : FailedWith e s (raise e (s.writeA zeroLanes)) := by
  simp [FailedWith, raise, State.writeA]

@[simp] theorem commit_ok (t s : State) : commit (.ok t) s = .next (complete t) := rfl
@[simp] theorem commit_error (e : Err) (s : State) : commit (.error e) s = .next (raise e s) := rfl
@[simp] theorem commitS_ok (t s : State) : commitS (.ok t) s = .next (complete (t.writeA zeroLanes)) := rfl
@[simp] theorem commitS_error (e : Err) (s : State) :
    commitS (.error e) s = .next (raise e (s.writeA zeroLanes)) := rfl

/-- Everything `commit` can do: complete what was written, or fail and leave the rest. -/
theorem commit_cases (r : Except Err State) (s : State) :
    (∃ t, r = .ok t ∧ commit r s = .next (complete t)) ∨ (∃ e, r = .error e ∧ commit r s = .next (raise e s)) := by
  cases r with
  | ok t => exact .inl ⟨t, rfl, rfl⟩
  | error e => exact .inr ⟨e, rfl, rfl⟩

/-- Everything `commitS` can do: A is 0 in both cases. -/
theorem commitS_cases (r : Except Err State) (s : State) :
    (∃ t, r = .ok t ∧ commitS r s = .next (complete (t.writeA zeroLanes))) ∨
      (∃ e, r = .error e ∧ commitS r s = .next (raise e (s.writeA zeroLanes))) := by
  cases r with
  | ok t => exact .inl ⟨t, rfl, rfl⟩
  | error e => exact .inr ⟨e, rfl, rfl⟩

/-! ### The form of the buffer space -/

/-- The form holds exactly when every buffer is within BMAX. -/
theorem memory_wf_iff (s : State) (bmax : Nat) :
    Memory.wf bmax s.b = true ↔ ∀ i, (s.readB i).length ≤ bmax := by
  simp only [Memory.wf, List.all_eq_true, decide_eq_true_eq, State.readB]
  constructor
  · intro h i
    exact h _ (by simp)
  · intro h x hx
    obtain ⟨i, hi, rfl⟩ := List.getElem_of_mem hx
    have : i < 8 := by simpa using hi
    simpa using h ⟨i, this⟩

/-- Replacing a buffer by one within BMAX keeps the form. -/
theorem memory_wf_writeB {s : State} {bmax : Nat} {i : Idx8} {x : Bytes} (h : Memory.wf bmax s.b = true)
    (hx : x.length ≤ bmax) : Memory.wf bmax (s.writeB i x).b = true := by
  rw [memory_wf_iff] at h ⊢
  intro j
  by_cases hj : j = i
  · simpa [hj] using hx
  · simpa [hj] using h j

/-- A write to BLEN keeps the form. -/
theorem memory_wf_writeLen {s : State} (v : Word) (h : Memory.wf s.params.bmax s.b = true) :
    Memory.wf s.params.bmax (writeLen v s).b = true := by
  unfold writeLen
  split
  · exact h
  · refine memory_wf_writeB h ?_
    simp only [List.length_append, List.length_take, zeros, List.length_replicate]
    omega

/-- A write to BDATA keeps the form. -/
theorem memory_wf_writeData {s : State} (v : Word) (h : Memory.wf s.params.bmax s.b = true) :
    Memory.wf s.params.bmax (writeData v s).b = true := by
  have hlen : (s.readB (selected s)).length ≤ s.params.bmax := (memory_wf_iff s _).1 h _
  simp only [writeData]
  split
  · exact memory_wf_writeB h (by simpa using hlen)
  · split
    · refine memory_wf_writeB h ?_
      simp only [List.length_append, List.length_singleton]
      omega
    · exact h

/-- A read of BDATA leaves the buffers. -/
theorem readData_b (s : State) : (readData s).2.b = s.b := by
  unfold readData; split <;> rfl

/-- The buffers after reset are in form. -/
theorem memory_wf_resetWith (prm : Config.Params) : Memory.wf prm.bmax (State.resetWith prm).b = true := by
  simp [Memory.wf, State.resetWith]

theorem memory_wf_reset : Memory.wf State.reset.params.bmax State.reset.b = true := memory_wf_resetWith _

end Sys2Proof.Machine
end

