-- ==== Sys2Proof/Laws/PerInstr.lean ====
section
/-! SUPPORT. One statement about every instruction, a lemma for each constructor: its encoding carries its opcode
(30_encoding.md R83, R87). -/

namespace Sys2Proof.Laws

/-- The opcode of each command (30_encoding.md R83). -/
def opcodeOf : Instr → Nat
  | .ald _ => 0x01
  | .ast _ => 0x02
  | .fld _ _ => 0x03
  | .fst _ _ => 0x04
  | .kld _ _ => 0x05
  | .kst _ _ => 0x06
  | .lenc _ _ => 0x10
  | .renc _ _ => 0x11
  | .encstr _ _ => 0x12
  | .bytepad _ _ _ => 0x13
  | .substr _ _ _ _ => 0x14
  | .kp => 0x20
  | .sponge _ _ _ _ => 0x28
  | .shake _ _ _ => 0x29
  | .cshake _ _ _ _ _ => 0x2A
  | .kmac _ _ _ _ _ => 0x30
  | .fadd _ _ _ => 0x40
  | .fsub _ _ _ => 0x41
  | .fmul _ _ _ => 0x42
  | .finv _ _ => 0x43
  | .fsqrt _ _ _ => 0x44
  | .ptnew _ _ _ => 0x50
  | .ptfromx _ _ _ => 0x51
  | .ptadd _ _ _ => 0x52
  | .ptmul _ _ _ => 0x53
  | .ptenc _ _ => 0x54
  | .ptdec _ _ => 0x55
  | .ptg _ => 0x56
  | .keypair _ _ _ => 0x60
  | .encpk _ _ _ _ => 0x61
  | .decpk _ _ _ => 0x62
  | .encsym _ _ _ _ => 0x63
  | .decsym _ _ _ => 0x64
  | .sign _ _ _ => 0x65
  | .verify _ _ _ _ => 0x66

/-- The encoding of a command carries its opcode. -/
def EncodeOpcode.Statement (i : Instr) : Prop := opcOf (encode i) = opcodeOf i

theorem EncodeOpcode.ald (a : Idx8) : EncodeOpcode.Statement (.ald a) :=
  opcOf_assemble (by omega) (by omega) (by omega) (by omega) (by omega) (by omega) (by omega)

theorem EncodeOpcode.ast (d : Idx8) : EncodeOpcode.Statement (.ast d) :=
  opcOf_assemble (by omega) (by omega) (by omega) (by omega) (by omega) (by omega) (by omega)

theorem EncodeOpcode.fld (d : Idx8) (a : Idx8) : EncodeOpcode.Statement (.fld d a) :=
  opcOf_assemble (by omega) (by omega) (by omega) (by omega) (by omega) (by omega) (by omega)

theorem EncodeOpcode.fst (d : Idx8) (a : Idx8) : EncodeOpcode.Statement (.fst d a) :=
  opcOf_assemble (by omega) (by omega) (by omega) (by omega) (by omega) (by omega) (by omega)

theorem EncodeOpcode.kld (d : Idx4) (a : Idx8) : EncodeOpcode.Statement (.kld d a) :=
  opcOf_assemble (by omega) (by omega) (by omega) (by omega) (by omega) (by omega) (by omega)

theorem EncodeOpcode.kst (d : Idx8) (a : Idx4) : EncodeOpcode.Statement (.kst d a) :=
  opcOf_assemble (by omega) (by omega) (by omega) (by omega) (by omega) (by omega) (by omega)

theorem EncodeOpcode.lenc (d : Idx8) (a : Idx8) : EncodeOpcode.Statement (.lenc d a) :=
  opcOf_assemble (by omega) (by omega) (by omega) (by omega) (by omega) (by omega) (by omega)

theorem EncodeOpcode.renc (d : Idx8) (a : Idx8) : EncodeOpcode.Statement (.renc d a) :=
  opcOf_assemble (by omega) (by omega) (by omega) (by omega) (by omega) (by omega) (by omega)

theorem EncodeOpcode.encstr (d : Idx8) (a : Idx8) : EncodeOpcode.Statement (.encstr d a) :=
  opcOf_assemble (by omega) (by omega) (by omega) (by omega) (by omega) (by omega) (by omega)

theorem EncodeOpcode.bytepad (d : Idx8) (a : Idx8) (b : Idx8) : EncodeOpcode.Statement (.bytepad d a b) :=
  opcOf_assemble (by omega) (by omega) (by omega) (by omega) (by omega) (by omega) (by omega)

theorem EncodeOpcode.substr (d : Idx8) (a : Idx8) (b : Idx8) (c : Idx8) : EncodeOpcode.Statement (.substr d a b c) :=
  opcOf_assemble (by omega) (by omega) (by omega) (by omega) (by omega) (by omega) (by omega)

theorem EncodeOpcode.kp : EncodeOpcode.Statement .kp :=
  opcOf_assemble (by omega) (by omega) (by omega) (by omega) (by omega) (by omega) (by omega)

theorem EncodeOpcode.sponge (d : Idx8) (a : Idx8) (b : Idx8) (c : Idx8) : EncodeOpcode.Statement (.sponge d a b c) :=
  opcOf_assemble (by omega) (by omega) (by omega) (by omega) (by omega) (by omega) (by omega)

theorem EncodeOpcode.shake (d : Idx8) (a : Idx8) (b : Idx8) : EncodeOpcode.Statement (.shake d a b) :=
  opcOf_assemble (by omega) (by omega) (by omega) (by omega) (by omega) (by omega) (by omega)

theorem EncodeOpcode.cshake (d : Idx8) (a : Idx8) (b : Idx8) (c : Idx8) (e : Idx8) : EncodeOpcode.Statement (.cshake d a b c e) :=
  opcOf_assemble (by omega) (by omega) (by omega) (by omega) (by omega) (by omega) (by omega)

theorem EncodeOpcode.kmac (d : Idx8) (a : Idx8) (b : Idx8) (c : Idx8) (e : Idx8) : EncodeOpcode.Statement (.kmac d a b c e) :=
  opcOf_assemble (by omega) (by omega) (by omega) (by omega) (by omega) (by omega) (by omega)

theorem EncodeOpcode.fadd (d : Idx8) (a : Idx8) (b : Idx8) : EncodeOpcode.Statement (.fadd d a b) :=
  opcOf_assemble (by omega) (by omega) (by omega) (by omega) (by omega) (by omega) (by omega)

theorem EncodeOpcode.fsub (d : Idx8) (a : Idx8) (b : Idx8) : EncodeOpcode.Statement (.fsub d a b) :=
  opcOf_assemble (by omega) (by omega) (by omega) (by omega) (by omega) (by omega) (by omega)

theorem EncodeOpcode.fmul (d : Idx8) (a : Idx8) (b : Idx8) : EncodeOpcode.Statement (.fmul d a b) :=
  opcOf_assemble (by omega) (by omega) (by omega) (by omega) (by omega) (by omega) (by omega)

theorem EncodeOpcode.finv (d : Idx8) (a : Idx8) : EncodeOpcode.Statement (.finv d a) :=
  opcOf_assemble (by omega) (by omega) (by omega) (by omega) (by omega) (by omega) (by omega)

theorem EncodeOpcode.fsqrt (d : Idx8) (a : Idx8) (imm : BitVec 4) : EncodeOpcode.Statement (.fsqrt d a imm) :=
  opcOf_assemble (by omega) (by omega) (by omega) (by omega) (by omega) (by omega) (by omega)

theorem EncodeOpcode.ptnew (d : Idx4) (a : Idx8) (b : Idx8) : EncodeOpcode.Statement (.ptnew d a b) :=
  opcOf_assemble (by omega) (by omega) (by omega) (by omega) (by omega) (by omega) (by omega)

theorem EncodeOpcode.ptfromx (d : Idx4) (a : Idx8) (imm : BitVec 4) : EncodeOpcode.Statement (.ptfromx d a imm) :=
  opcOf_assemble (by omega) (by omega) (by omega) (by omega) (by omega) (by omega) (by omega)

theorem EncodeOpcode.ptadd (d : Idx4) (a : Idx4) (b : Idx4) : EncodeOpcode.Statement (.ptadd d a b) :=
  opcOf_assemble (by omega) (by omega) (by omega) (by omega) (by omega) (by omega) (by omega)

theorem EncodeOpcode.ptmul (d : Idx4) (a : Idx4) (b : Idx4) : EncodeOpcode.Statement (.ptmul d a b) :=
  opcOf_assemble (by omega) (by omega) (by omega) (by omega) (by omega) (by omega) (by omega)

theorem EncodeOpcode.ptenc (d : Idx8) (a : Idx4) : EncodeOpcode.Statement (.ptenc d a) :=
  opcOf_assemble (by omega) (by omega) (by omega) (by omega) (by omega) (by omega) (by omega)

theorem EncodeOpcode.ptdec (d : Idx4) (a : Idx8) : EncodeOpcode.Statement (.ptdec d a) :=
  opcOf_assemble (by omega) (by omega) (by omega) (by omega) (by omega) (by omega) (by omega)

theorem EncodeOpcode.ptg (d : Idx4) : EncodeOpcode.Statement (.ptg d) :=
  opcOf_assemble (by omega) (by omega) (by omega) (by omega) (by omega) (by omega) (by omega)

theorem EncodeOpcode.keypair (d : Idx4) (e : Idx4) (a : Idx8) : EncodeOpcode.Statement (.keypair d e a) :=
  opcOf_assemble (by omega) (by omega) (by omega) (by omega) (by omega) (by omega) (by omega)

theorem EncodeOpcode.encpk (d : Idx8) (a : Idx8) (b : Idx4) (c : Idx8) : EncodeOpcode.Statement (.encpk d a b c) :=
  opcOf_assemble (by omega) (by omega) (by omega) (by omega) (by omega) (by omega) (by omega)

theorem EncodeOpcode.decpk (d : Idx8) (a : Idx8) (b : Idx8) : EncodeOpcode.Statement (.decpk d a b) :=
  opcOf_assemble (by omega) (by omega) (by omega) (by omega) (by omega) (by omega) (by omega)

theorem EncodeOpcode.encsym (d : Idx8) (a : Idx8) (b : Idx8) (c : Idx8) : EncodeOpcode.Statement (.encsym d a b c) :=
  opcOf_assemble (by omega) (by omega) (by omega) (by omega) (by omega) (by omega) (by omega)

theorem EncodeOpcode.decsym (d : Idx8) (a : Idx8) (b : Idx8) : EncodeOpcode.Statement (.decsym d a b) :=
  opcOf_assemble (by omega) (by omega) (by omega) (by omega) (by omega) (by omega) (by omega)

theorem EncodeOpcode.sign (d : Idx8) (a : Idx8) (b : Idx8) : EncodeOpcode.Statement (.sign d a b) :=
  opcOf_assemble (by omega) (by omega) (by omega) (by omega) (by omega) (by omega) (by omega)

theorem EncodeOpcode.verify (d : Idx8) (a : Idx8) (b : Idx8) (c : Idx4) : EncodeOpcode.Statement (.verify d a b c) :=
  opcOf_assemble (by omega) (by omega) (by omega) (by omega) (by omega) (by omega) (by omega)

end Sys2Proof.Laws
end

