-- ==== Sys2Proof/Tests/Slice0.lean ====
section
/-! SUPPORT. The model's own tests. Expected values come from spec/95_test_vectors.md (section numbers in the comments)
or from an independent calculation in Python of the rules ("computed"); decode words are written out bit by bit from the
patterns of 30_encoding.md R83. `small` uses the conforming-range parameters BMAX = 512, r = 13 so that scalar
multiplications stay short. The witnesses show that the hypotheses of the obligations can be met. -/

namespace Sys2Proof.Tests

set_option Elab.async false

open Sys2Proof Sys2Proof.Machine

/-- The state a command leaves. -/
def after (i : Instr) (s : State) : State :=
  match exec i s with
  | .next t => t
  | _ => s

/-- The completion code a command leaves. -/
def code (i : Instr) (s : State) : Nat := (statusCode (after i s).status).toNat

/-- Reset, with BMAX = 512 and r = 13. -/
def small : State := State.resetWith ⟨512, 13, Config.defaultG⟩

/-- n bytes counting up from v. -/
def upFrom (v n : Nat) : Bytes := (List.range n).map fun i => BitVec.ofNat 8 (v + i)

/-- "hello", "password" and "Password". -/
def hello : Bytes := [0x68, 0x65, 0x6C, 0x6C, 0x6F]
def password : Bytes := [0x70, 0x61, 0x73, 0x73, 0x77, 0x6F, 0x72, 0x64]
def wrongPassword : Bytes := [0x50, 0x61, 0x73, 0x73, 0x77, 0x6F, 0x72, 0x64]

/-! ### WellFormed: the one check refuses what it must -/

theorem test_wellFormed_refuses_fsqrt_imm : (Instr.fsqrt 0 0 2).wellFormed = false := by decide
theorem test_wellFormed_refuses_ptfromx_imm : (Instr.ptfromx 0 0 2).wellFormed = false := by decide
theorem test_wellFormed_accepts :
    (Instr.fsqrt 0 0 1).wellFormed = true ∧ (Instr.ptfromx 3 7 0).wellFormed = true ∧
    (Instr.kmac 7 7 7 7 7).wellFormed = true := by
  decide

/-! ### Decoding: every row's word written out from its pattern, distinct operands -/

theorem test_decode_moves :
    decode 0b00000001000000110000000000000000 = .ok (.ald 3) ∧
    decode 0b00000010010100000000000000000000 = .ok (.ast 5) ∧
    decode 0b00000011010100110000000000000000 = .ok (.fld 5 3) ∧
    decode 0b00000100010100110000000000000000 = .ok (.fst 5 3) ∧
    decode 0b00000101001000110000000000000000 = .ok (.kld 2 3) ∧
    decode 0b00000110010100010000000000000000 = .ok (.kst 5 1) := by
  decide

theorem test_decode_bitencoding :
    decode 0b00010000010100110000000000000000 = .ok (.lenc 5 3) ∧
    decode 0b00010001010100110000000000000000 = .ok (.renc 5 3) ∧
    decode 0b00010010010100110000000000000000 = .ok (.encstr 5 3) ∧
    decode 0b00010011010100110110000000000000 = .ok (.bytepad 5 3 6) ∧
    decode 0b00010100010100110110000100000000 = .ok (.substr 5 3 6 1) := by
  decide

theorem test_decode_keccak_and_sponge :
    decode 0b00100000000000000000000000000000 = .ok .kp ∧
    decode 0b00101000010100110110000100000000 = .ok (.sponge 5 3 6 1) ∧
    decode 0b00101001010100110110000000000000 = .ok (.shake 5 3 6) ∧
    decode 0b00101010010100110110000101110000 = .ok (.cshake 5 3 6 1 7) := by
  decide

theorem test_decode_kmac_and_field :
    decode 0b00110000010100110110000101110000 = .ok (.kmac 5 3 6 1 7) ∧
    decode 0b01000000010100110110000000000000 = .ok (.fadd 5 3 6) ∧
    decode 0b01000001010100110110000000000000 = .ok (.fsub 5 3 6) ∧
    decode 0b01000010010100110110000000000000 = .ok (.fmul 5 3 6) ∧
    decode 0b01000011010100110000000000000000 = .ok (.finv 5 3) ∧
    decode 0b01000100010100110000000000000001 = .ok (.fsqrt 5 3 1) := by
  decide

theorem test_decode_points :
    decode 0b01010000001000110110000000000000 = .ok (.ptnew 2 3 6) ∧
    decode 0b01010001001000110000000000000001 = .ok (.ptfromx 2 3 1) ∧
    decode 0b01010010001000010011000000000000 = .ok (.ptadd 2 1 3) ∧
    decode 0b01010011001000010011000000000000 = .ok (.ptmul 2 1 3) ∧
    decode 0b01010100010100010000000000000000 = .ok (.ptenc 5 1) ∧
    decode 0b01010101001000110000000000000000 = .ok (.ptdec 2 3) ∧
    decode 0b01010110001000000000000000000000 = .ok (.ptg 2) := by
  decide

theorem test_decode_protocols :
    decode 0b01100000001000110000000000010000 = .ok (.keypair 2 1 3) ∧
    decode 0b01100001010100110011000100000000 = .ok (.encpk 5 3 3 1) ∧
    decode 0b01100010010100110110000000000000 = .ok (.decpk 5 3 6) ∧
    decode 0b01100011010100110110000100000000 = .ok (.encsym 5 3 6 1) ∧
    decode 0b01100100010100110110000000000000 = .ok (.decsym 5 3 6) ∧
    decode 0b01100101010100110110000000000000 = .ok (.sign 5 3 6) ∧
    decode 0b01100110010100110110001000000000 = .ok (.verify 5 3 6 2) := by
  decide


/-- Illegal words of section 8. -/
theorem test_illegal_words :
    decode 0x00000000 = .error .unlistedOpcode ∧ decode 0xFFFFFFFF = .error .unlistedOpcode ∧
    decode 0x20000001 = .error .unusedField ∧ decode 0x20100000 = .error .unusedField ∧
    decode 0x07000000 = .error .unlistedOpcode ∧ decode 0x29800000 = .error .indexRange ∧
    decode 0x53400000 = .error .indexRange ∧ decode 0x53040000 = .error .indexRange ∧
    decode 0x53004000 = .error .indexRange ∧ decode 0x44100002 = .error .immediateRange ∧
    decode 0x40000001 = .error .unusedField ∧ decode 0x60020011 = .error .unusedField ∧
    decode 0x60020810 = .error .unusedField ∧ decode 0x31000000 = .error .unlistedOpcode ∧
    decode 0x67000000 = .error .unlistedOpcode := by
  decide

/-- No two rows of the opcode table select one word: where both masks look, the patterns differ. -/
theorem test_rows_do_not_overlap :
    opcodeRows.Pairwise fun x y => x.pattern &&& (x.mask &&& y.mask) ≠ y.pattern &&& (x.mask &&& y.mask) := by
  decide +kernel

theorem test_table_has_35_rows : opcodeRows.length = 35 := by decide

theorem test_decodeTableWord :
    decodeTableWord 32 0x60020010 = some (.keypair 0 1 2) ∧ decodeTableWord 32 0 = none := by
  decide

/-! ### Moves and BitEncoding -/

/-- Section 2.4: 00×192 EF CD AB 89 67 45 23 01 loads the last lane. -/
theorem test_ald : (after (.ald 1) (small.writeB 1 (zeros 192 ++ [0xEF, 0xCD, 0xAB, 0x89, 0x67, 0x45, 0x23, 0x01]))).a[24] =
    0x0123456789ABCDEF := by
  decide +kernel

/-- Section 2.4: 199 and 201 bytes are MalformedInput. -/
theorem test_ald_length : code (.ald 1) (small.writeB 1 (zeros 199)) = 3 ∧
    code (.ald 1) (small.writeB 1 (zeros 201)) = 3 := by
  decide +kernel

/-- Section 2.4: A[i] = i is stored with byte 8i = i. -/
theorem test_ast : (after (.ast 2) (small.writeA (Vector.ofFn fun i => BitVec.ofNat 64 i.val))).readB 2 =
    (List.range 25).flatMap fun i => BitVec.ofNat 8 i :: zeros 7 := by
  decide +kernel

/-- Section 2.5. -/
theorem test_lenc : (after (.lenc 1 0) (small.writeB 0 [0, 0, 1, 0])).readB 1 = [2, 1, 0] ∧
    (after (.lenc 1 0) small).readB 1 = [1, 0] := by
  decide +kernel

/-- Section 2.5, the boundary: 2^2040 - 1 is accepted, 2^2040 is not. -/
theorem test_lenc_boundary :
    (after (.lenc 1 0) (small.writeB 0 (List.replicate 255 0xFF))).readB 1 = List.replicate 256 0xFF ∧
    code (.lenc 1 0) (small.writeB 0 (1 :: zeros 255)) = 2 := by
  decide +kernel

/-- Section 2.5. -/
theorem test_renc : (after (.renc 1 0) (small.writeB 0 [1, 0, 0])).readB 1 = [1, 0, 0, 3] ∧
    code (.renc 1 0) (small.writeB 0 (1 :: zeros 255)) = 2 := by
  decide +kernel

/-- Section 2.5: "KMAC". -/
theorem test_encstr : (after (.encstr 1 0) (small.writeB 0 [0x4B, 0x4D, 0x41, 0x43])).readB 1 =
    [0x01, 0x20, 0x4B, 0x4D, 0x41, 0x43] := by
  decide +kernel

/-- R103: 3 + 509 bytes fit BMAX = 512, 3 + 510 do not. -/
theorem test_encstr_capacity : code (.encstr 1 0) (small.writeB 0 (zeros 509)) = 0 ∧
    code (.encstr 1 0) (small.writeB 0 (zeros 510)) = 7 := by
  decide +kernel

/-- Section 2.5. -/
theorem test_bytepad :
    (after (.bytepad 1 0 0) ((small.writeB 0 [0xAA, 0xBB, 0xCC]).writeN 0 5)).readB 1 = [0x01, 0x05, 0xAA, 0xBB, 0xCC] ∧
    (after (.bytepad 1 0 0) ((small.writeB 0 [1, 2, 3, 4, 5]).writeN 0 4)).readB 1 = [1, 4, 1, 2, 3, 4, 5, 0] := by
  decide +kernel

/-- R104: w = 0, w = BMAX and w above BMAX. -/
theorem test_bytepad_errors : code (.bytepad 1 0 0) small = 2 ∧ code (.bytepad 1 0 0) (small.writeN 0 512) = 0 ∧
    code (.bytepad 1 0 0) (small.writeN 0 513) = 7 := by
  decide +kernel

/-- Section 2.5. -/
theorem test_substr :
    (after (.substr 1 0 0 1) (((small.writeB 0 (upFrom 0x10 5)).writeN 0 2).writeN 1 99)).readB 1 = [0x12, 0x13, 0x14] ∧
    (after (.substr 1 0 0 1) (((small.writeB 0 (upFrom 0x10 5)).writeN 0 4).writeN 1 2)).readB 1 = [] := by
  decide +kernel

/-- R105: lo = len(X) gives the empty string; the source may be the destination. -/
theorem test_substr_edges :
    (after (.substr 0 0 0 1) (((small.writeB 0 (upFrom 0x10 5)).writeN 0 5).writeN 1 9)).readB 0 = [] ∧
    (after (.substr 0 0 0 1) (((small.writeB 0 (upFrom 0x10 5)).writeN 0 1).writeN 1 3)).readB 0 = [0x11, 0x12] := by
  decide +kernel

/-! ### Keccak and sponge -/

/-- Section 2.1: KP on the zero state. -/
theorem test_kp : (after .kp small).a[0] = 0xF1258F7940E1DDE7 ∧ (after .kp small).a[13] = 0x43B831CD0347C826 := by
  simp only [after, exec, execKp, keccakP_fast]
  decide +kernel

/-- The input of section 2.2. -/
def stepInput : Lanes := Vector.ofFn fun i => BitVec.ofNat 64 (0x0123456789ABCDEF * (i.val + 1))

/-- Section 2.2. -/
theorem test_steps : (theta stepInput)[1] = 0x19343332200F74C7 ∧ (rhoPi stepInput)[1] = 0x2A18907F6E5D4C3B ∧
    (chi stepInput)[14] = 0x10351199051D3731 ∧ (iota stepInput 23)[0] = 0x8123456709AB4DE7 ∧
    (keccakRound stepInput 0)[24] = 0x29C527E79E4D7683 := by
  decide +kernel

/-- Section 3.1. -/
theorem test_padding : padding 135 0x1F = [0x9F] ∧ padding 134 0x1F = [0x1F, 0x80] ∧
    padding 272 0x04 = 0x04 :: zeros 134 ++ [0x80] := by
  decide +kernel

/-- Section 3.2: the empty message, 256 bits, in place. -/
theorem test_shake : (after (.shake 1 1 0) (small.writeN 0 256)).readB 1 =
    i2osp 0x46B9DD2B0BA88D13233B3FEB743EEB243FCD52EA62B81B82B50C27646ED5762F 32 := by
  simp only [after, exec, execShake, shake256, sponge_fast]
  decide +kernel

/-- Section 3.2: L = 12, L above BMAX, L = 2^64 - 1; A is cleared on each. -/
theorem test_shake_errors : code (.shake 1 0 0) (small.writeN 0 12) = 2 ∧ code (.shake 1 0 0) (small.writeN 0 4104) = 7 ∧
    code (.shake 1 0 0) (small.writeN 0 0xFFFFFFFFFFFFFFFF) = 2 ∧
    (after (.shake 1 0 0) ((small.writeN 0 12).writeA stepInput)).a = zeroLanes := by
  decide +kernel

/-- Section 3.3: suffix 06. -/
theorem test_sponge :
    (after (.sponge 1 0 0 1) (((small.writeB 0 [0x61, 0x62, 0x63]).writeN 0 256).writeN 1 0x06)).readB 1 =
      i2osp 0x3A985DA74FE225B2045C172D6BD390BD855F086E3E9D525B46BFE24511431532 32 := by
  simp only [after, exec, execSponge, sponge_fast]
  decide +kernel

/-- Section 3.3: suffix 0, 80 and 100; R142: L not a multiple of 8, L above BMAX. -/
theorem test_sponge_errors : code (.sponge 1 0 0 1) small = 2 ∧ code (.sponge 1 0 0 1) (small.writeN 1 0x80) = 2 ∧
    code (.sponge 1 0 0 1) (small.writeN 1 0x100) = 2 ∧ code (.sponge 1 0 0 1) ((small.writeN 0 4).writeN 1 1) = 2 ∧
    code (.sponge 1 0 0 1) ((small.writeN 0 4104).writeN 1 0x7F) = 7 := by
  decide +kernel

/-- Section 3.4: the empty message, name "KMAC", no customization. -/
theorem test_cshake : (after (.cshake 1 0 0 2 3) ((small.writeB 2 [0x4B, 0x4D, 0x41, 0x43]).writeN 0 256)).readB 1 =
    i2osp 0xD0BE3C95B6BB1635D894428A569D522D7EF8B687C3AA2BF58ACA935735A083E9 32 := by
  simp only [after, exec, execCshake, cshake256, shake256, sponge_fast]
  decide +kernel

/-- R144: both strings empty is SHAKE; the errors. -/
theorem test_cshake_empty_and_errors :
    (after (.cshake 1 0 0 2 2) (small.writeN 0 64)).readB 1 = [0x46, 0xB9, 0xDD, 0x2B, 0x0B, 0xA8, 0x8D, 0x13] ∧
    code (.cshake 1 0 0 2 3) (small.writeN 0 4) = 2 ∧ code (.cshake 1 0 0 2 3) (small.writeN 0 4104) = 7 := by
  simp only [code, after, exec, execCshake, cshake256, shake256, sponge_fast]
  decide +kernel

/-- Section 4, row 1. -/
theorem test_kmac : (after (.kmac 4 0 1 0 3) ((small.writeB 1 [0, 1, 2, 3]).writeN 0 256)).readB 4 =
    i2osp 0x1AFCAAAC06818DFA05E9198D655BE1567943A1A01B8422005411F0CB03379518 32 := by
  simp only [after, exec, execKmac, kmacxof256, cshake256, sponge_fast]
  decide +kernel

/-- Section 4, the errors. -/
theorem test_kmac_errors : code (.kmac 4 0 1 0 3) (small.writeN 0 4) = 2 ∧
    code (.kmac 4 0 1 0 3) (small.writeN 0 4104) = 7 := by
  decide +kernel

/-! ### Field -/

/-- Section 5: FF×56 loads 2^224; 55 bytes are MalformedInput. -/
theorem test_fld : ((after (.fld 3 0) (small.writeB 0 (List.replicate 56 0xFF))).readF 3).val = 2 ^ 224 ∧
    code (.fld 3 0) (small.writeB 0 (zeros 55)) = 3 := by
  decide +kernel

/-- Section 5: p - 1 is FF×27 FE FF×27 FE. -/
theorem test_fst : (after (.fst 2 3) (small.writeF 3 (Fe.ofNat (fieldPrime - 1)))).readB 2 =
    List.replicate 27 0xFF ++ 0xFE :: List.replicate 27 0xFF ++ [0xFE] := by
  decide +kernel

/-- Section 5: FF×64 loads 2^512 - 1; 65 bytes are MalformedInput. -/
theorem test_kld : (after (.kld 3 0) (small.writeB 0 (List.replicate 64 0xFF))).readK 3 = BitVec.allOnes 512 ∧
    code (.kld 3 0) (small.writeB 0 (zeros 65)) = 3 := by
  decide +kernel

/-- Section 5: 1 is stored as 00×63 01. -/
theorem test_kst : (after (.kst 2 3) (small.writeK 3 1)).readB 2 = zeros 63 ++ [1] := by decide +kernel

/-- Section 5: (p - 1) + 2 = 1. -/
theorem test_fadd :
    ((after (.fadd 0 1 2) ((small.writeF 1 (Fe.ofNat (fieldPrime - 1))).writeF 2 (Fe.ofNat 2))).readF 0).val = 1 := by
  decide +kernel

/-- Section 5: 0 - 1 = p - 1. -/
theorem test_fsub : ((after (.fsub 0 1 2) (small.writeF 2 (Fe.ofNat 1))).readF 0).val = fieldPrime - 1 := by
  decide +kernel

/-- Section 5: 2^224 squared is 2^224 + 1. -/
theorem test_fmul : ((after (.fmul 1 1 1) (small.writeF 1 (Fe.ofNat (2 ^ 224)))).readF 1).val = 2 ^ 224 + 1 := by
  decide +kernel

/-- Section 5: the inverse of 2 is (p + 1)/2; 0 is DomainError. -/
theorem test_finv : ((after (.finv 0 1) (small.writeF 1 (Fe.ofNat 2))).readF 0).val = (fieldPrime + 1) / 2 ∧
    code (.finv 0 1) small = 2 := by
  decide +kernel

/-- Section 5: the roots of 4 by their least significant bit; 0 has the root 0 for either. -/
theorem test_fsqrt : ((after (.fsqrt 0 1 0) (small.writeF 1 (Fe.ofNat 4))).readF 0).val = 2 ∧
    ((after (.fsqrt 0 1 1) (small.writeF 1 (Fe.ofNat 4))).readF 0).val = fieldPrime - 2 ∧
    code (.fsqrt 0 1 1) small = 0 := by
  decide +kernel

/-- Section 5: 7 and p - 1 have no root. -/
theorem test_fsqrt_none : code (.fsqrt 0 1 0) (small.writeF 1 (Fe.ofNat 7)) = 5 ∧
    code (.fsqrt 0 1 1) (small.writeF 1 (Fe.ofNat (fieldPrime - 1))) = 5 := by
  decide +kernel

/-! ### Points -/

/-- Section 6.2: (1, 0) is accepted, (0, 0) and (1, 1) are not. -/
theorem test_ptnew : (after (.ptnew 2 0 1) (small.writeF 0 (Fe.ofNat 1))).readP 2 = ⟨Fe.ofNat 1, Fe.ofNat 0⟩ ∧
    code (.ptnew 2 0 1) small = 4 ∧ code (.ptnew 2 0 0) (small.writeF 0 (Fe.ofNat 1)) = 4 := by
  decide +kernel

/-- Section 6.2: x = 8 with lsb 0 is G; x = 2 has no point. -/
theorem test_ptfromx : (after (.ptfromx 1 0 0) (small.writeF 0 (Fe.ofNat 8))).readP 1 = Config.defaultG ∧
    code (.ptfromx 1 0 0) (small.writeF 0 (Fe.ofNat 2)) = 5 := by
  decide +kernel

/-- 2G and 3G of section 6.3. -/
def twoG : Point :=
  ⟨Fe.ofNat 0x0ECBA514E483AAF0619C177B56C35F3984C8F0BBA1667200E0ECCA2D727DCEC89DB89AFB8CE3B83A86D594D9B59AA0696279D2A3D65DC4EB,
   Fe.ofNat 0xE1F6E7016FAB56E57CF876C65E7F38E42B1584B9889734D7F20B431D9F9F7EB51732D5740DAC1127FFEBC91C348E455EF0101363B64053F0⟩
def threeG : Point :=
  ⟨Fe.ofNat 0x2D72551A917F5EDC26C2CBF69E4C31CCB787E06CEABC2731515B29D95AB85D41E18307DFDC6F09BC36CFF577557C70E8239F6BEE29F52709,
   Fe.ofNat 0xA947C2FC5F8FF108247883CFB3E1BFC9B70A77CAB6B4BAA21D7BBF809DB14AD6121628160D169FF2FC2ECDAE070B0982A2866E4F761808C7⟩

/-- Section 6.3: doubling in place, and (1, 0) added to G. -/
theorem test_ptadd : (after (.ptadd 0 0 0) (small.writeP 0 Config.defaultG)).readP 0 = twoG ∧
    (after (.ptadd 2 0 1) ((small.writeP 0 Config.defaultG).writeP 1 ⟨Fe.ofNat 1, Fe.ofNat 0⟩)).readP 2 =
      ⟨Config.defaultG.y, Fe.ofNat (fieldPrime - 8)⟩ := by
  decide +kernel

/-- Section 6.3: 3·G, and 0·G = O. -/
theorem test_ptmul : (after (.ptmul 2 0 1) ((small.writeP 0 Config.defaultG).writeK 1 3)).readP 2 = threeG ∧
    (after (.ptmul 0 0 1) (small.writeP 0 Config.defaultG)).readP 0 = Config.neutral := by
  decide +kernel

/-- Section 6.4. -/
theorem test_ptenc : (after (.ptenc 1 0) small).readB 1 = zeros 111 ++ [1] ∧
    (after (.ptenc 1 0) (small.writeP 0 Config.defaultG)).readB 1 =
      zeros 55 ++ 8 :: i2osp 0xC66F6F0565E6D0B5F2BB263CEBB9F8540EB046F40ED0FFF7F84D84653B428D989AABFF93B6BF700801228094E3DD0C2D1C600E3B0BCCFC32 56 := by
  decide +kernel

/-- Section 6.4: both halves are reduced; 00×112 is off the curve; 113 bytes are MalformedInput. -/
theorem test_ptdec :
    (after (.ptdec 1 0) ((small.writeB 0 (i2osp fieldPrime 56 ++ i2osp (fieldPrime + 1) 56)).writeP 1 twoG)).readP 1 =
      Config.neutral ∧
    code (.ptdec 1 0) (small.writeB 0 (zeros 112)) = 4 ∧ code (.ptdec 1 0) (small.writeB 0 (zeros 113)) = 3 := by
  decide +kernel

/-- R211. -/
theorem test_ptg : (after (.ptg 3) small).readP 3 =
    ⟨Fe.ofNat 8, Fe.ofNat 0xC66F6F0565E6D0B5F2BB263CEBB9F8540EB046F40ED0FFF7F84D84653B428D989AABFF93B6BF700801228094E3DD0C2D1C600E3B0BCCFC32⟩ := by
  decide +kernel

/-! ### Protocols -/

/-- Section 7.1's KMAC value, times 4, is 2 modulo 13; V is 2G. -/
theorem test_keypair : ((after (.keypair 3 2 0) (small.writeB 0 password)).readK 3).toNat = 2 ∧
    (after (.keypair 3 2 0) (small.writeB 0 password)).readP 2 = twoG := by
  simp only [after, exec, execKeypair, privScalar, kmacxof256, cshake256, sponge_fast]
  decide +kernel

/-- The random input 00×63 04: k = 3 modulo 13, so Z is 3G of section 6.3. -/
def random : Bytes := zeros 63 ++ [4]
/-- The public-key cryptogram of "hello" for V = 2G under that input, computed. -/
def cryptogramPk : Bytes := ptEnc threeG ++ i2osp
  0xB60831F66C8C22C70CEECA562197AEDB446560DDCDBF58569695BE111B5112F4E5BEE0DC4ED8749B789CDD1426AE993A2AA0E204818F6C38F81446691406FA731DD8DC9244
  69

theorem test_encpk :
    (after (.encpk 3 1 2 0) (((small.writeB 1 hello).writeB 0 random).writeP 2 twoG)).readB 3 = cryptogramPk := by
  simp only [after, exec, execEncpk, encryptPk, sealText, applyKeystream, tagOf, derivePk, kmacxof256, cshake256,
    sponge_fast]
  decide +kernel

/-- R232: the order of the errors, and the largest message that fits. -/
theorem test_encpk_errors : code (.encpk 3 1 2 0) ((small.writeB 1 (zeros 337)).writeB 0 (zeros 63)) = 3 ∧
    code (.encpk 3 1 2 0) ((small.writeB 1 (zeros 337)).writeB 0 (zeros 64)) = 7 := by
  decide +kernel

theorem test_decpk : (after (.decpk 4 3 0) ((small.writeB 3 cryptogramPk).writeB 0 password)).readB 4 = hello := by
  simp only [after, exec, execDecpk, decryptPk, openText, applyKeystream, tagOf, derivePk, privScalar, kmacxof256,
    cshake256, sponge_fast]
  decide +kernel

/-- Section 7.2: a wrong passphrase; R233: too short, and a pair off the curve before the tag. -/
theorem test_decpk_errors : code (.decpk 4 3 0) ((small.writeB 3 cryptogramPk).writeB 0 wrongPassword) = 6 ∧
    code (.decpk 4 3 0) (small.writeB 3 (zeros 175)) = 3 ∧ code (.decpk 4 3 0) (small.writeB 3 (zeros 176)) = 4 := by
  simp only [code, after, exec, execDecpk, decryptPk, openText, applyKeystream, tagOf, derivePk, privScalar,
    kmacxof256, cshake256, sponge_fast]
  decide +kernel

/-- The symmetric cryptogram of section 7.3. -/
def cryptogramSym : Bytes := upFrom 0x80 64 ++ i2osp
  0x2A80EDF2403E15D27F39FC2F052329A80178099BEFAF69CD5EC34EE5F249CF626324C3EEB9383D6E5D3FFE014C86467E53BF7AE4A42192EDA9FA63CDAAD4F0EEAD7A3747F9
  69

theorem test_encsym :
    (after (.encsym 3 1 0 2) (((small.writeB 1 hello).writeB 0 password).writeB 2 (upFrom 0x80 64))).readB 3 =
      cryptogramSym := by
  simp only [after, exec, execEncsym, encryptSym, sealText, applyKeystream, tagOf, deriveSym, kmacxof256, cshake256,
    sponge_fast]
  decide +kernel

/-- R234: the order of the errors. -/
theorem test_encsym_errors : code (.encsym 3 1 0 2) (small.writeB 1 (zeros 385)) = 3 ∧
    code (.encsym 3 1 0 2) ((small.writeB 1 (zeros 385)).writeB 2 (zeros 64)) = 7 := by
  decide +kernel

theorem test_decsym : (after (.decsym 4 3 0) ((small.writeB 3 cryptogramSym).writeB 0 password)).readB 4 = hello := by
  simp only [after, exec, execDecsym, decryptSym, openText, applyKeystream, tagOf, deriveSym, kmacxof256, cshake256,
    sponge_fast]
  decide +kernel

/-- Section 7.3: a wrong passphrase; a 127-byte buffer; 128 bytes are enough to reach the tag. -/
theorem test_decsym_errors : code (.decsym 4 3 0) ((small.writeB 3 cryptogramSym).writeB 0 wrongPassword) = 6 ∧
    code (.decsym 4 3 0) (small.writeB 3 (zeros 127)) = 3 := by
  simp only [code, after, exec, execDecsym, decryptSym, openText, applyKeystream, tagOf, deriveSym, kmacxof256,
    cshake256, sponge_fast]
  decide +kernel

/-- s = 2, k = 6, z = (6 - 2h) mod 13 = 3, computed. -/
theorem test_sign : (after (.sign 2 1 0) ((small.writeB 1 hello).writeB 0 password)).readB 2 = i2osp
    0xF708BF7782B81EDC9A297FBA7A8931719377AF6F1ED2F924C9BD362CD2A1EA2293DB87A655931DF29747719B6B294D06F7C60C0D87246AE43B749DAF41F4C66C 64 ++
    zeros 55 ++ [3] := by
  simp only [after, exec, execSign, signMessage, challenge, privScalar, kmacxof256, cshake256, sponge_fast]
  decide +kernel

/-- The signature of "hello" by "password" for r = 5 (s = 0, so V = O; z = k = 4), computed. -/
def signature5 : Bytes := i2osp
  0x525E54D6571075E459874825A718C6139AFCF424AAF95AFE0FCCF734D4F1124C3039DD80DEC7BF6D112D42A34D6F0C228D4AF74200D2D2B1658B12B7F24495C4 64 ++
  zeros 55 ++ [4]

/-- VERIFY accepts it under V = O, the reset value of P[3]. -/
theorem test_verify_accepts :
    (after (.verify 6 2 1 3) ((small.writeB 1 hello).writeB 2 signature5)).readN 6 = 1 := by
  have accepted : verifySignature small.params signature5 hello Config.neutral = true := by
    simp only [verifySignature, scalarMultiply_neutral, challenge, kmacxof256, cshake256, sponge_fast]
    decide +kernel
  have length : signature5.length = 120 := by decide +kernel
  have point : small.readP 3 = Config.neutral := by decide +kernel
  simp [after, exec, execVerify, accepted, length, point, Config.sigBytes]

/-- 120 bytes 00 are rejected with OK; 119 bytes are MalformedInput (section 7.4). -/
theorem test_verify_rejects :
    (after (.verify 6 2 1 3) ((small.writeB 2 (zeros 120)).writeN 6 9)).readN 6 = 0 ∧
    code (.verify 6 2 1 3) (small.writeB 2 (zeros 119)) = 3 ∧
    (after (.verify 6 2 1 3) ((small.writeB 2 (zeros 119)).writeN 6 9)).readN 6 = 9 := by
  simp only [code, after, exec, execVerify, verifySignature, challenge, kmacxof256, cshake256, sponge_fast]
  decide +kernel

/-! ### Host interface and completion -/

/-- The replies to the accesses, and a buffer. -/
def replies (inputs : List Input) (s : State) : List Nat :=
  match performAll inputs s with
  | .next t => t.replies.map BitVec.toNat
  | _ => []

/-- Section 9, first half. -/
theorem test_window : replies [.read 0x18 4, .write 0x08 4 0xB, .read 0x08 4, .read 0x10 4, .read 0x14 4,
    .write 0x14 4 0x1AA, .write 0x14 4 0xBB, .read 0x10 4, .write 0x0C 4 0, .read 0x14 4] State.reset =
    [0x1000, 3, 0, 0, 2, 0xAA] := by
  decide +kernel

/-- Section 9, second half. -/
theorem test_window_resize : replies [.write 0x10 4 2, .write 0x14 4 0xAA, .write 0x14 4 0xCC, .write 0x0C 4 5,
    .write 0x14 4 0xDD, .read 0x10 4, .write 0x10 4 4, .read 0x14 4, .write 0x10 4 1, .write 0x10 4 0x1001, .read 0x10 4,
    .write 0x40 4 0x89ABCDEF, .write 0x44 4 0x01234567, .read 0x40 4, .read 0x44 4, .read 0x1C 4] State.reset =
    [2, 0xAA, 1, 0x89ABCDEF, 0x01234567, 0] := by
  decide +kernel

/-- Accesses the spec leaves undefined are refused by name. -/
theorem test_refusals : (∃ s, perform (.read 0x02 4) s = .refused .accessShape) ∧
    (∃ s, perform (.read 0x00 2) s = .refused .accessShape) ∧
    (∃ s, perform (.write 0x80 4 0) s = .refused .outsideEngine) :=
  ⟨⟨small, rfl⟩, ⟨small, rfl⟩, ⟨small, rfl⟩⟩

/-- One step from a queued CMD write: FINV of 0, then an illegal word, then an acknowledgement. -/
def failing : State := { small with inputs := [.write 0x00 4 0x43100000] }
theorem test_failed_step : (match step failing with | .next t => t.status | _ => 0) = 0x26 := by decide +kernel
theorem test_illegal_step :
    (match step { small with inputs := [.write 0x00 4 0x20000001] } with | .next t => (t.status, t.cmd) | _ => (0, 0)) =
      (0x16, 0x20000001) := by
  decide +kernel
theorem test_fetch :
    (match step (State.reset.withFetchWord 32 0x44100001) with | .next t => (t.status, t.cmd) | _ => (0, 0)) =
      (0x02, 0x44100001) := by
  decide +kernel

/-! ### Witnesses: the hypotheses of the obligations can be met -/

theorem witness_StepRunsTheDecodedCommand : ∃ (s : State) (w : Word) (rest : List Input) (i : Instr),
    s.inputs = .write 0x00 4 w :: rest ∧ statusBusy s.status = false ∧ decode w = .ok i :=
  ⟨failing, 0x43100000, [], .finv 1 0, rfl, by decide, by decide⟩

theorem witness_idle : ∃ s : State, s.inputs = [] := ⟨small, rfl⟩

theorem witness_IllegalWordCompletesWithIllegal : ∃ (s : State) (w : Word) (rest : List Input) (why : Illegal),
    s.inputs = .write 0x00 4 w :: rest ∧ statusBusy s.status = false ∧ decode w = .error why :=
  ⟨{ small with inputs := [.write 0x00 4 0x20000001] }, 0x20000001, [], .unusedField, rfl, by decide, by decide⟩

theorem witness_DecodeAndEncodeAgree : ∃ (i : Instr) (w : Word), i.wellFormed = true ∧ decode w = .ok i :=
  ⟨.keypair 0 1 2, 0x60020010, by decide, by decide⟩

theorem witness_ResetGivesEveryRegisterItsValue : ∃ s t : State, s ≠ State.reset ∧ perform .reset s = .next t :=
  ⟨failing, applyReset failing, by decide +kernel, rfl⟩

/-- A state with a loaded buffer and point, a failed command's STATUS, and a pending input. -/
def busyDay : State :=
  { (small.writeB 3 hello).writeP 1 twoG with status := 0x26, inputs := [.write 0x00 4 0x52010000] }

theorem paramsOk_small : ParamsOk small.params := by
  refine ⟨?_, ?_, ?_, ?_, ?_⟩ <;> decide +kernel

theorem witness_StepKeepsTidy : ∃ s t, Tidy s ∧ step s = .next t :=
  ⟨busyDay, _, ⟨by decide +kernel, ⟨by decide, by decide, by decide⟩, paramsOk_small⟩, rfl⟩

theorem witness_StepKeepsPointsOnCurve : ∃ s t, PointsOnCurve s ∧ step s = .next t :=
  ⟨busyDay, _, ⟨by decide +kernel, by decide +kernel⟩, rfl⟩

theorem witness_FailedCommandChangesNothingElse : ∃ s w rest t, s.inputs = .write 0x00 4 w :: rest ∧
    statusBusy s.status = false ∧ step s = .next t ∧ statusCode t.status ≠ okCode :=
  ⟨failing, 0x43100000, [], raise .domainError (accept 0x43100000 { failing with inputs := [] }), rfl, by decide, by rfl,
    by decide⟩

theorem witness_ClassSLeavesSpongeStateZero : ∃ (i : Instr) (w : Word) (why : Illegal),
    classS i = true ∧ decode w = .error why :=
  ⟨.shake 0 0 0, 0, .unlistedOpcode, by decide, by decide⟩

theorem witness_OnlyTheDestinationChanges : ∃ i s t j, exec i s = .next t ∧ destB i ≠ some j ∧ destB i ≠ none :=
  ⟨.ptenc 1 0, small, _, 0, rfl, by decide, by decide⟩

theorem witness_CommandIgnoresStatusAndHostState : ∃ s t, SameRegisters s t ∧ s ≠ t :=
  ⟨small, failing, ⟨rfl, rfl, rfl, rfl, rfl, rfl, rfl⟩, by decide +kernel⟩

theorem witness_RegistersAreReadOnlyByTheirCommands : ∃ i s t, exec i s = .next t ∧ readsN i = false ∧
    readsA i = false ∧ readsF i = false ∧ readsP i = false ∧ readsK i = false :=
  ⟨.sign 0 1 2, small, _, rfl, rfl, rfl, rfl, rfl, rfl⟩

theorem witness_LencAndRencEncodeTheInteger :
    (∃ s : State, os2ip (s.readB 0) + 1 = 2 ^ 2040) ∧ ∃ s : State, os2ip (s.readB 0) = 2 ^ 2040 :=
  ⟨⟨small.writeB 0 (List.replicate 255 0xFF), by decide +kernel⟩, ⟨small.writeB 0 (1 :: zeros 255), by decide +kernel⟩⟩

theorem witness_EncstrPrefixesTheBitLength : ∃ s : State, s.params.bmax < 2 ^ 31 ∧ (s.readB 0).length = s.params.bmax :=
  ⟨small.writeB 0 (zeros 512), by decide +kernel⟩

theorem witness_SpongeAbsorbsAndSqueezes : ∃ m bits n : Nat, m % 136 = 135 ∧ bits % 8 = 0 ∧ n < bits / 8 ∧ 136 ≤ n :=
  ⟨135, 1096, 136, by decide⟩

theorem witness_ShorterSpongeOutputIsAPrefix : ∃ short long, short % 8 = 0 ∧ long % 8 = 0 ∧ short ≤ long ∧ 1088 < long :=
  ⟨256, 2400, by decide⟩

theorem witness_SpongeCommandsAgree :
    (∃ s : State, (s.readN 0).toNat = 0x1F) ∧ (∃ s : State, s.readB 0 = [] ∧ s.readB 1 = []) ∧
    ∃ s t u : State, exec (.kmac 4 0 1 0 3) s = .next t ∧ statusCode t.status = okCode ∧
      (s.writeB 5 (bytepad (encodeString (s.readB 0)) 136 ++ s.readB 1 ++ [0x00, 0x01])).writeB 6
        [0x4B, 0x4D, 0x41, 0x43] = u ∧ (5 : Idx8) ≠ 6 ∧ (5 : Idx8) ≠ 3 ∧ (6 : Idx8) ≠ 3 := by
  refine ⟨⟨small.writeN 0 0x1F, by decide +kernel⟩, ⟨small, by decide +kernel⟩, small, _, _, rfl, ?_, rfl, ?_⟩
  · rfl
  · decide

theorem witness_FsqrtFollowsThePseudocode : ∃ imm : BitVec 4, imm.toNat ≤ 1 ∧ imm ≠ 0 := ⟨1, by decide, by decide⟩

theorem witness_FinvIsTheInverse : ∃ s : State, (s.readF 0).val ≠ 0 :=
  ⟨small.writeF 0 (Fe.ofNat 2), by decide +kernel⟩

theorem witness_FsqrtCompletesExactlyOnSquares : ∃ s : State, ∃ u, u * u % fieldPrime = (s.readF 0).val ∧ u ≠ 0 :=
  ⟨small.writeF 0 (Fe.ofNat 4), 2, by decide +kernel⟩

/-- The other clause: 7 is no square modulo p, its Jacobi symbol being -1. -/
theorem witness_FsqrtCompletes_nonsquare : ∃ s : State, ¬ ∃ u, u * u % fieldPrime = (s.readF 0).val := by
  refine ⟨small.writeF 0 (Fe.ofNat 7), ?_⟩
  have value : ((small.writeF 0 (Fe.ofNat 7)).readF 0).val = 7 := by decide +kernel
  rintro ⟨u, hu⟩
  rw [value] at hu
  have symbol : jacobiSym 7 fieldPrime = -1 := by norm_num [fieldPrime]
  refine ZMod.nonsquare_of_jacobiSym_eq_neg_one symbol ⟨(u : ZMod fieldPrime), ?_⟩
  have h : ((u * u % fieldPrime : Nat) : ZMod fieldPrime) = ((7 : Nat) : ZMod fieldPrime) := by rw [hu]
  rw [ZMod.natCast_mod, Nat.cast_mul] at h
  simpa using h.symm

theorem witness_PtnewChecksTheCurveEquation : onCurve twoG = true ∧ onCurve ⟨Fe.ofNat 1, Fe.ofNat 1⟩ = false := by
  decide +kernel

theorem witness_PtaddMeetsTheCompleteAdditionLaw : ∃ s : State, onCurve (s.readP 0) = true ∧ onCurve (s.readP 1) = true ∧
    s.readP 0 ≠ s.readP 1 :=
  ⟨busyDay, by decide +kernel⟩

theorem witness_StoreThenLoadGivesTheValueBack : ∃ s t : State, onCurve (s.readP 1) = true ∧
    exec (.ptenc 0 1) s = .next t :=
  ⟨busyDay, _, by decide +kernel, rfl⟩

theorem witness_KeypairDerivesScalarAndPoint : ∃ s : State, ParamsOk s.params := ⟨small, paramsOk_small⟩

theorem witness_SymmetricRoundTrip : ∃ s : State, (s.readB 2).length = 64 ∧ 128 + (s.readB 1).length = s.params.bmax :=
  ⟨(small.writeB 1 (zeros 384)).writeB 2 (upFrom 0x80 64), by decide +kernel⟩

theorem witness_DecpkRecoversWhenTheSharedPointsAgree : ∃ (s : State) (k : Nat), (s.readB 2).length = 64 ∧
    176 + (s.readB 1).length = s.params.bmax ∧ k = os2ip (s.readB 2) * 4 % s.params.r ∧
    onCurve (scalarMultiply s.params.g k) = true ∧ scalarMultiply (s.readP 2) k ≠ Config.neutral ∧
    scalarMultiply (s.readP 2) k =
      scalarMultiply (scalarMultiply s.params.g k) (os2ip (kmacxof256 (s.readB 0) [] 512 [0x53, 0x4B]) * 4 % s.params.r) :=
  ⟨(((small.writeB 1 (zeros 336)).writeB 2 random).writeB 0 password).writeP 2 twoG, 3, by
    simp only [kmacxof256, cshake256, sponge_fast]
    decide +kernel⟩

/-- `small` with r = 5. -/
def small5 : State := ((State.resetWith ⟨512, 5, Config.defaultG⟩).writeB 0 password).writeB 1 hello

theorem response_witness (h : Nat) :
    ((4 : Nat) : Int) = (((4 : Nat) : Int) - (h : Int) * ((0 : Nat) : Int)) % ((5 : Nat) : Int) := by
  simp

theorem witness_VerifyAcceptsWhenTheCommitmentAgrees : ∃ (s : State) (scalar k h z : Nat), ParamsOk s.params ∧
    scalar = os2ip (kmacxof256 (s.readB 0) [] 512 [0x53, 0x4B]) * 4 % s.params.r ∧
    k = os2ip (kmacxof256 (i2osp scalar 56) (s.readB 1) 512 [0x4E]) * 4 % s.params.r ∧
    h = os2ip (kmacxof256 (i2osp (scalarMultiply s.params.g k).x.val 56) (s.readB 1) 512 [0x54]) ∧
    (z : Int) = ((k : Int) - (h : Int) * (scalar : Int)) % (s.params.r : Int) ∧
    ptAdd (scalarMultiply s.params.g z) (scalarMultiply (s.readP 3) h) = scalarMultiply s.params.g k := by
  have point : small5.readP 3 = Config.neutral := by decide +kernel
  refine ⟨small5, 0, 4, _, 4, ⟨?_, ?_, ?_, ?_, ?_⟩, ?_, ?_, rfl, ?_, ?_⟩
  · decide
  · decide
  · decide
  · decide +kernel
  · decide +kernel
  · simp only [kmacxof256, cshake256, sponge_fast]
    decide +kernel
  · simp only [kmacxof256, cshake256, sponge_fast]
    decide +kernel
  · exact response_witness _
  · rw [point, scalarMultiply_neutral]
    decide +kernel

theorem witness_HostProceduresMoveTheData : ∃ (s : State) (x : Bytes), statusBusy s.status = false ∧
    x.length = s.params.bmax ∧ s.params.bmax < 2 ^ 31 ∧ (s.readB 3).length < 2 ^ 31 :=
  ⟨busyDay, zeros 512, by decide +kernel⟩

/-- BPTR before the end, at the end below BMAX, at the end at BMAX, and past the end. -/
theorem witness_BufferWindowFollowsItsRules : ∃ s : State, statusBusy s.status = false ∧ s.params.bmax < 2 ^ 31 ∧
    (s.readB (selected s)).length = s.params.bmax ∧ s.bptr.toNat + 1 = s.params.bmax :=
  ⟨{ small.writeB 0 (zeros 512) with bptr := 511 }, by decide +kernel⟩

theorem witness_BufferWindow_append_at_511 : ∃ s : State, s.bptr.toNat = (s.readB (selected s)).length ∧
    (s.readB (selected s)).length + 1 = s.params.bmax :=
  ⟨{ small.writeB 0 (zeros 511) with bptr := 511 }, by decide +kernel⟩

theorem witness_BufferWindow_full_and_past : (∃ s : State, s.bptr.toNat = (s.readB (selected s)).length ∧
    (s.readB (selected s)).length = s.params.bmax) ∧ ∃ s : State, (s.readB (selected s)).length < s.bptr.toNat :=
  ⟨⟨{ small.writeB 0 (zeros 512) with bptr := 512 }, by decide +kernel⟩, ⟨{ small with bptr := 1 }, by decide +kernel⟩⟩

/-- A command executed where commands are, with BUSY = 1, and a BPTR that is not 0. -/
theorem witness_BufferWindow_commands : ∃ s t u : State, statusBusy s.status = true ∧ s.bptr = 3 ∧
    exec (.ptenc 0 1) s = .next t ∧ issue 0x54010000 small = .next u :=
  ⟨{ accept 0x54010000 small with bptr := 3 }, _, _, by decide, rfl, rfl, rfl⟩

/-- A write of BLEN with exactly BMAX, and with one more. -/
theorem witness_BufferWindow_length_at_BMAX : (512 : Word).toNat = small.params.bmax ∧
    ((writeLen 512 small).readB 0).length = small.params.bmax ∧ writeLen 513 small = small := by
  decide +kernel

theorem witness_PlainHostRegistersFollowTheirRules : ∃ s : State, statusBusy s.status = false ∧
    shownStatus s.status = s.status ∧ s.params.bmax < 2 ^ 31 ∧ statusEstk s.status = true ∧ statusDone s.status = true :=
  ⟨busyDay, by decide⟩

theorem witness_BusyEngineIgnoresTheHost : ∃ s : State, statusBusy s.status = true ∧ s.params.bmax < 2 ^ 31 :=
  ⟨accept 0 small, by decide⟩

/-- While busy, the first and last reserved offset and the first and last of the N window read 0, and a BDATA read with
a byte at BPTR neither shows it nor advances. -/
theorem test_busy_reads : ∀ off ∈ [0x1C, 0x3C, 0x40, 0x7C, 0x14], readReg (hostReg off) (accept 0 (small.writeB 0 hello)) =
    (0, accept 0 (small.writeB 0 hello)) := by
  decide +kernel

theorem witness_DefinedAccessesAnswerAndOthersAreRefused : (Input.read 0x7C 4).defined = true ∧
    (Input.read 0x80 4).defined = false ∧ (Input.read 0x7E 4).defined = false ∧ (Input.write 0 2 0).defined = false := by
  decide

end Sys2Proof.Tests
end

section
/-! SUPPORT. Reset (10_state.md R36) and the Keccak state after a class-S command or an illegal word (10_state.md R28). -/

namespace Sys2Proof.Machine

/-- `zeroLanes` read lane by lane. -/
theorem zeroLanes_getElem (j : Fin 25) : zeroLanes[j] = 0 := by
  simp [zeroLanes]

/-! ### Reset -/

section
variable (s : State)

@[simp] theorem readN_applyReset (i : Idx8) : (applyReset s).readN i = 0 := by
  simp [State.readN, applyReset, State.resetWith]

@[simp] theorem readB_applyReset (i : Idx8) : (applyReset s).readB i = [] := by
  simp [State.readB, applyReset, State.resetWith]

@[simp] theorem applyReset_a : (applyReset s).a = zeroLanes := rfl

@[simp] theorem readF_applyReset (i : Idx8) : (applyReset s).readF i = Fe.ofNat 0 := by
  simp [State.readF, applyReset, State.resetWith]

@[simp] theorem readP_applyReset (i : Idx4) : (applyReset s).readP i = Config.neutral := by
  simp [State.readP, applyReset, State.resetWith]

@[simp] theorem readK_applyReset (i : Idx4) : (applyReset s).readK i = 0#512 := by
  simp [State.readK, applyReset, State.resetWith]

@[simp] theorem applyReset_cmd : (applyReset s).cmd = 0 := rfl
@[simp] theorem applyReset_status : (applyReset s).status = 0 := rfl
@[simp] theorem applyReset_bsel : (applyReset s).bsel = 0 := rfl
@[simp] theorem applyReset_bptr : (applyReset s).bptr = 0 := rfl

end

theorem feOfNat_zero_val : (Fe.ofNat 0).val = 0 := by decide

/-- The coordinates of the neutral element O = (0, 1). -/
theorem neutral_coordinates : Config.neutral.x.val = 0 ∧ Config.neutral.y.val = 1 := by decide

/-- A STATUS of 0 is an idle engine that has completed nothing. -/
theorem status_zero_fields : statusBusy 0 = false ∧ statusDone 0 = false ∧ statusEstk 0 = false ∧ statusCode 0 = 0 := by
  decide

/-- Power-on is the reset of an engine that nothing has happened to yet. -/
theorem reset_eq_applyReset : State.reset = applyReset State.reset := rfl

theorem perform_reset_iff {s t : State} : perform .reset s = .next t ↔ t = applyReset s := by
  constructor
  · rintro ⟨⟩
    rfl
  · rintro rfl
    rfl

/-- A state that a reset leaves, at power-on or later, is `applyReset` of some state. -/
theorem eq_applyReset_of_reset {t : State} (h : t = State.reset ∨ ∃ s, perform .reset s = .next t) :
    ∃ s, t = applyReset s := by
  obtain rfl | ⟨s, hs⟩ := h
  · exact ⟨State.reset, reset_eq_applyReset⟩
  · exact ⟨s, perform_reset_iff.1 hs⟩

/-- Settles O6: both kinds of reset are `applyReset`, whose registers are read off one by one. -/
theorem resetGivesEveryRegisterItsValue : Obligations.ResetGivesEveryRegisterItsValue := by
  intro t ht
  obtain ⟨s, rfl⟩ := eq_applyReset_of_reset ht
  obtain ⟨hbusy, hdone, hestk, hcode⟩ := status_zero_fields
  refine ⟨readN_applyReset s, fun i => ?buffer, fun i => ?lane, fun i => ?field, fun i => ?point, fun i => ?scalar,
    applyReset_cmd s, applyReset_status s, hbusy, hdone, hestk, hcode, applyReset_bsel s, applyReset_bptr s⟩
  case buffer => rw [readB_applyReset, List.length_nil]
  case lane => rw [applyReset_a, zeroLanes_getElem]
  case field => rw [readF_applyReset, feOfNat_zero_val]
  case point => rw [readP_applyReset]; exact neutral_coordinates
  case scalar => rw [readK_applyReset, BitVec.toNat_zero]

/-! ### Class S and illegal words -/

/-- Every class-S command ends in `commitS`. -/
theorem exec_classS_eq_commitS {i : Instr} (h : classS i = true) (s : State) :
    ∃ written, exec i s = commitS written s := by
  cases i with
  | sponge | shake | cshake | kmac | keypair | encpk | decpk | encsym | decsym | sign | verify => exact ⟨_, rfl⟩
  | _ => simp [classS] at h

/-- `commitS` clears A whether the command completed or failed. -/
theorem commitS_clears_a (written : Except Err State) (s : State) :
    ∃ t, commitS written s = .next t ∧ t.a = zeroLanes := by
  obtain ⟨u, -, hu⟩ | ⟨e, -, he⟩ := commitS_cases written s
  · exact ⟨_, hu, by simp⟩
  · exact ⟨_, he, by simp⟩

theorem exec_classS_clears_a {i : Instr} (h : classS i = true) (s : State) :
    ∃ t, exec i s = .next t ∧ t.a = zeroLanes := by
  obtain ⟨written, hexec⟩ := exec_classS_eq_commitS h s
  rw [hexec]
  exact commitS_clears_a written s

theorem issue_of_decode_error {w : Word} {why : Illegal} (h : decode w = .error why) (s : State) :
    issue w s = .next (raise .illegal (accept w s)) := by
  simp [issue, h]

/-- Settles O12: class S ends in `commitS`, an illegal word in `raise` after `accept`, which leave A. -/
theorem classSLeavesSpongeStateZero : Obligations.ClassSLeavesSpongeStateZero := by
  refine ⟨fun i s hi => ?classS, fun s w why hw => ?illegal⟩
  case classS =>
    obtain ⟨t, hexec, ha⟩ := exec_classS_clears_a hi s
    exact ⟨t, hexec, fun j => by rw [ha, zeroLanes_getElem]⟩
  case illegal => exact ⟨_, issue_of_decode_error hw s, by simp⟩

end Sys2Proof.Machine
end

section
/-! SUPPORT. The buffer window (20_memory.md R57 to R60): no command writes a register of the host port, and what every
read and write of BSEL, BPTR, BLEN and BDATA does while BUSY = 0. -/

namespace Sys2Proof.Machine

/-! ### Commands and the registers of the host port -/

/-- What no command writes: CMD, BSEL, BPTR, the parameters, the pending inputs and the replies. -/
structure KeepsHostPort (s t : State) : Prop where
  cmd : t.cmd = s.cmd
  bsel : t.bsel = s.bsel
  bptr : t.bptr = s.bptr
  params : t.params = s.params
  inputs : t.inputs = s.inputs
  replies : t.replies = s.replies

/-- Whatever a command has written, when it reaches no error, keeps the host port. -/
def WrittenKeepsHostPort (s : State) (written : Except Err State) : Prop :=
  ∀ t, written = .ok t → KeepsHostPort s t

section
variable {s t u : State} {written other : Except Err State}

theorem KeepsHostPort.trans (hst : KeepsHostPort s t) (htu : KeepsHostPort t u) : KeepsHostPort s u :=
  ⟨htu.cmd.trans hst.cmd, htu.bsel.trans hst.bsel, htu.bptr.trans hst.bptr, htu.params.trans hst.params,
    htu.inputs.trans hst.inputs, htu.replies.trans hst.replies⟩

@[simp] theorem keepsHostPort_writeN (i : Idx8) (v : BitVec 64) : KeepsHostPort s (s.writeN i v) := by
  constructor <;> rfl
@[simp] theorem keepsHostPort_writeB (i : Idx8) (x : Bytes) : KeepsHostPort s (s.writeB i x) := by
  constructor <;> rfl
@[simp] theorem keepsHostPort_writeA (a : Lanes) : KeepsHostPort s (s.writeA a) := by
  constructor <;> rfl
@[simp] theorem keepsHostPort_writeF (i : Idx8) (v : Fe) : KeepsHostPort s (s.writeF i v) := by
  constructor <;> rfl
@[simp] theorem keepsHostPort_writeP (i : Idx4) (v : Point) : KeepsHostPort s (s.writeP i v) := by
  constructor <;> rfl
@[simp] theorem keepsHostPort_writeK (i : Idx4) (v : BitVec 512) : KeepsHostPort s (s.writeK i v) := by
  constructor <;> rfl
@[simp] theorem keepsHostPort_complete : KeepsHostPort s (complete s) := by
  constructor <;> rfl
@[simp] theorem keepsHostPort_raise (e : Err) : KeepsHostPort s (raise e s) := by
  constructor <;> rfl

/-! The ways a command computes what it writes: outright, behind a check, or from a function that can fail. -/

@[simp] theorem writtenKeepsHostPort_ok : WrittenKeepsHostPort s (.ok t) ↔ KeepsHostPort s t := by
  simp [WrittenKeepsHostPort]

@[simp] theorem writtenKeepsHostPort_error (e : Err) : WrittenKeepsHostPort s (.error e) := by
  rintro t ⟨⟩

@[simp] theorem writtenKeepsHostPort_ite {c : Prop} [Decidable c] :
    WrittenKeepsHostPort s (if c then written else other) ↔
      (c → WrittenKeepsHostPort s written) ∧ (¬ c → WrittenKeepsHostPort s other) := by
  split
  next hc => simp [hc]
  next hc => simp [hc]

@[simp] theorem writtenKeepsHostPort_map {α : Type} {write : α → State} (result : Except Err α)
    (hwrite : ∀ x, KeepsHostPort s (write x)) : WrittenKeepsHostPort s (result.map write) := by
  cases result with
  | ok x => exact writtenKeepsHostPort_ok.2 (hwrite x)
  | error e => exact writtenKeepsHostPort_error e

theorem commit_keepsHostPort (h : commit written s = .next t) (hwritten : WrittenKeepsHostPort s written) :
    KeepsHostPort s t := by
  obtain ⟨u, hu, hnext⟩ | ⟨e, -, hnext⟩ := commit_cases written s <;> rw [hnext] at h <;> cases h
  · exact (hwritten u hu).trans keepsHostPort_complete
  · exact keepsHostPort_raise e

theorem commitS_keepsHostPort (h : commitS written s = .next t) (hwritten : WrittenKeepsHostPort s written) :
    KeepsHostPort s t := by
  obtain ⟨u, hu, hnext⟩ | ⟨e, -, hnext⟩ := commitS_cases written s <;> rw [hnext] at h <;> cases h
  · exact ((hwritten u hu).trans (keepsHostPort_writeA _)).trans keepsHostPort_complete
  · exact (keepsHostPort_writeA _).trans (keepsHostPort_raise e)

/-- No command writes a register of the host port. KEYPAIR alone writes two register files. -/
theorem exec_keepsHostPort {i : Instr} (h : exec i s = .next t) : KeepsHostPort s t := by
  cases i with
  | ald | ast | fld | fst | kld | kst | lenc | renc | encstr | bytepad | substr | kp | fadd | fsub | fmul | finv | fsqrt
  | ptnew | ptfromx | ptadd | ptmul | ptenc | ptdec | ptg => exact commit_keepsHostPort h (by simp)
  | sponge | shake | cshake | kmac | encpk | decpk | encsym | decsym | sign | verify =>
    exact commitS_keepsHostPort h (by simp)
  | keypair =>
    refine commitS_keepsHostPort h (writtenKeepsHostPort_ok.2 ?_)
    exact (keepsHostPort_writeK _ _).trans (keepsHostPort_writeP _ _)

theorem issue_of_decode_ok {w : Word} {i : Instr} (h : decode w = .ok i) (s : State) :
    issue w s = exec i (accept w s) := by
  simp [issue, h]

/-- Issuing a word changes CMD and nothing else of the host port. -/
theorem issue_keepsHostPort {w : Word} (h : issue w s = .next t) : KeepsHostPort (accept w s) t := by
  cases hw : decode w with
  | ok i =>
    rw [issue_of_decode_ok hw] at h
    exact exec_keepsHostPort h
  | error why =>
    rw [issue_of_decode_error hw] at h
    cases h
    exact keepsHostPort_raise _

end

/-! ### A defined access -/

section
variable {off : Nat} (hoff : off < 0x80) (haligned : off % 4 = 0)
include hoff haligned

/-- An aligned 32-bit access inside the map is not refused. -/
theorem accessRefusal_of_defined : accessRefusal off 4 = none := by
  simp [accessRefusal, haligned, hoff]

theorem perform_read_of_defined {s t : State} {v : Word} (h : readReg (hostReg off) s = (v, t)) :
    perform (.read off 4) s = .next { t with replies := t.replies ++ [v] } := by
  simp [perform, accessRefusal_of_defined hoff haligned, h]

theorem perform_write_of_defined (v : Word) (s : State) :
    perform (.write off 4 v) s = writeReg (hostReg off) v s := by
  simp [perform, accessRefusal_of_defined hoff haligned]

end

/-! ### BPTR beside the buffers -/

/-- `BPTR <- q`. -/
def State.writeBptr (s : State) (q : Word) : State := { s with bptr := q }

@[simp] theorem State.readB_writeBptr (s : State) (q : Word) (j : Idx8) : (s.writeBptr q).readB j = s.readB j := rfl
@[simp] theorem State.byteAt_writeBptr (s : State) (q : Word) (j : Idx8) (m : Nat) :
    (s.writeBptr q).byteAt j m = s.byteAt j m := rfl

theorem byteAt_eq_getElem? (s : State) (i : Idx8) (m : Nat) : s.byteAt i m = (s.readB i)[m]? := rfl

/-! ### BLEN: a string cut or extended with 00 to n bytes (R59) -/

theorem length_cut_or_extended (x : Bytes) (n : Nat) : (x.take n ++ zeros (n - x.length)).length = n := by
  simp only [List.length_append, List.length_take, zeros_length]
  omega

/-- The bytes that were there stay, the others are 00. -/
theorem getElem?_cut_or_extended (x : Bytes) {n m : Nat} (hm : m < n) :
    (x.take n ++ zeros (n - x.length))[m]? = some (x[m]?.getD 0) := by
  by_cases hx : m < x.length
  · have htake : m < (x.take n).length := by simp; omega
    rw [List.getElem?_append_left htake, List.getElem?_take_of_lt hm, List.getElem?_eq_getElem hx, Option.getD_some]
  · have hlen : (x.take n).length = x.length := by simp; omega
    have hzero : m - x.length < n - x.length := by omega
    rw [List.getElem?_append_right (by omega), hlen, zeros, List.getElem?_replicate_of_lt hzero,
      List.getElem?_eq_none (by omega), Option.getD_none]

section
variable {s : State} {v : Word}

theorem writeLen_of_above (h : s.params.bmax < v.toNat) : writeLen v s = s := by
  simp [writeLen, h]

theorem writeLen_of_within (h : ¬ s.params.bmax < v.toNat) :
    writeLen v s = (s.writeB (selected s)
      ((s.readB (selected s)).take v.toNat ++ zeros (v.toNat - (s.readB (selected s)).length))).writeBptr 0 := by
  simp [writeLen, h, State.writeBptr]

/-- A write of BLEN within BMAX touches the selected buffer and BPTR, and gives that buffer exactly v bytes. -/
theorem writeLen_resizes (h : ¬ s.params.bmax < v.toNat) :
    writeLen v s = { s with b := (writeLen v s).b, bptr := 0 } ∧
    (∀ j m, j ≠ selected s → (writeLen v s).byteAt j m = s.byteAt j m) ∧
    ((writeLen v s).readB (selected s)).length = v.toNat ∧
    ∀ m, m < v.toNat → (writeLen v s).byteAt (selected s) m = some ((s.byteAt (selected s) m).getD 0) := by
  rw [writeLen_of_within h]
  refine ⟨rfl, fun j m hj => ?other, ?length, fun m hm => ?bytes⟩
  case other => simp [hj]
  case length => simpa using length_cut_or_extended (s.readB (selected s)) v.toNat
  case bytes => simpa [byteAt_eq_getElem?] using getElem?_cut_or_extended (s.readB (selected s)) hm

/-! ### BDATA (R60) -/

/-- A read of BDATA with BPTR inside the selected buffer returns the byte there and advances. -/
theorem readData_of_inside {byte : Byte} (h : s.byteAt (selected s) s.bptr.toNat = some byte) :
    readData s = (byte.setWidth 32, { s with bptr := s.bptr + 1 }) := by
  rw [byteAt_eq_getElem?] at h
  simp [readData, h]

/-- At or past the end it returns 0 and changes nothing. -/
theorem readData_of_past (h : (s.readB (selected s)).length ≤ s.bptr.toNat) : readData s = (0, s) := by
  simp [readData, List.getElem?_eq_none h]

theorem writeData_of_inside (h : s.bptr.toNat < (s.readB (selected s)).length) :
    writeData v s = (s.writeB (selected s)
      ((s.readB (selected s)).set s.bptr.toNat (v.extractLsb' 0 8))).writeBptr (s.bptr + 1) := by
  simp [writeData, h, State.writeBptr]

theorem writeData_of_end (hend : s.bptr.toNat = (s.readB (selected s)).length)
    (hroom : (s.readB (selected s)).length < s.params.bmax) :
    writeData v s = (s.writeB (selected s)
      (s.readB (selected s) ++ [v.extractLsb' 0 8])).writeBptr (s.bptr + 1) := by
  simp [writeData, hend, hroom, State.writeBptr]

theorem writeData_of_past (hpast : ¬ s.bptr.toNat < (s.readB (selected s)).length)
    (hfull : ¬ (s.bptr.toNat = (s.readB (selected s)).length ∧ (s.readB (selected s)).length < s.params.bmax)) :
    writeData v s = s := by
  simp only [writeData, if_neg hpast, if_neg hfull]

/-- A write of BDATA inside the selected buffer replaces the one byte at BPTR, and advances. -/
theorem writeData_overwrites (h : s.bptr.toNat < (s.readB (selected s)).length) :
    writeData v s = { s with b := (writeData v s).b, bptr := s.bptr + 1 } ∧
    (∀ j m, (j, m) ≠ (selected s, s.bptr.toNat) → (writeData v s).byteAt j m = s.byteAt j m) ∧
    (writeData v s).byteAt (selected s) s.bptr.toNat = some (v.extractLsb' 0 8) := by
  rw [writeData_of_inside h]
  refine ⟨rfl, fun j m hne => ?other, ?written⟩
  case other =>
    by_cases hj : j = selected s
    · have hm : s.bptr.toNat ≠ m := fun hm => hne (by rw [hj, hm])
      simp [hj, byteAt_eq_getElem?, List.getElem?_set_ne hm]
    · simp [hj]
  case written => simp [h]

/-- A write of BDATA at the end of the selected buffer, where BMAX allows it, appends one byte, and advances. -/
theorem writeData_appends (hend : s.bptr.toNat = (s.readB (selected s)).length)
    (hroom : (s.readB (selected s)).length < s.params.bmax) :
    writeData v s = { s with b := (writeData v s).b, bptr := s.bptr + 1 } ∧
    (∀ j, j ≠ selected s → (writeData v s).readB j = s.readB j) ∧
    (writeData v s).readB (selected s) = s.readB (selected s) ++ [v.extractLsb' 0 8] := by
  rw [writeData_of_end hend hroom]
  refine ⟨rfl, fun j hj => ?other, ?appended⟩
  case other => simp [hj]
  case appended => simp

end

/-! ### The accesses while BUSY = 0 -/

section
variable {s : State} (v : Word)

theorem perform_read_bsel : perform (.read 0x08 4) s = .next { s with replies := s.replies ++ [s.bsel.setWidth 32] } :=
  perform_read_of_defined (by decide) rfl rfl

theorem perform_read_bptr : perform (.read 0x0C 4) s = .next { s with replies := s.replies ++ [s.bptr] } :=
  perform_read_of_defined (by decide) rfl rfl

variable (hidle : statusBusy s.status = false)
include hidle

theorem perform_write_bsel :
    perform (.write 0x08 4 v) s = .next { s with bsel := v.extractLsb' 0 3, bptr := 0 } := by
  rw [perform_write_of_defined (by decide) rfl]
  simp [writeReg, hidle, hostReg, writeSel]

theorem perform_write_bptr : perform (.write 0x0C 4 v) s = .next { s with bptr := v } := by
  rw [perform_write_of_defined (by decide) rfl]
  simp [writeReg, hidle, hostReg]

theorem perform_read_blen : perform (.read 0x10 4) s = .next { s with
    replies := s.replies ++ [BitVec.ofNat 32 (s.readB (selected s)).length] } :=
  perform_read_of_defined (by decide) rfl (by simp [readReg, hidle, hostReg])

theorem perform_write_blen : perform (.write 0x10 4 v) s = .next (writeLen v s) := by
  rw [perform_write_of_defined (by decide) rfl]
  simp [writeReg, hidle, hostReg]

theorem readReg_bdata : readReg (hostReg 0x14) s = readData s := by
  simp [readReg, hidle, hostReg]

theorem perform_read_bdata_of_inside {byte : Byte} (h : s.byteAt (selected s) s.bptr.toNat = some byte) :
    perform (.read 0x14 4) s = .next { s with bptr := s.bptr + 1, replies := s.replies ++ [byte.setWidth 32] } :=
  perform_read_of_defined (by decide) rfl ((readReg_bdata hidle).trans (readData_of_inside h))

theorem perform_read_bdata_of_past (h : (s.readB (selected s)).length ≤ s.bptr.toNat) :
    perform (.read 0x14 4) s = .next { s with replies := s.replies ++ [0] } :=
  perform_read_of_defined (by decide) rfl ((readReg_bdata hidle).trans (readData_of_past h))

theorem perform_write_bdata : perform (.write 0x14 4 v) s = .next (writeData v s) := by
  rw [perform_write_of_defined (by decide) rfl]
  simp [writeReg, hidle, hostReg]

end

/-- Settles O57: commands keep the host port; each access of the window is its register's rule, BLEN split at BMAX,
BDATA at the end of the selected buffer and at BMAX. -/
theorem bufferWindowFollowsItsRules : Obligations.BufferWindowFollowsItsRules := by
  refine ⟨fun i s t h => (exec_keepsHostPort h).bptr, fun w s t h => (issue_keepsHostPort h).bptr,
    fun s v hidle _ _ => ⟨rfl, perform_write_bsel v hidle, perform_read_bsel, perform_write_bptr v hidle,
      perform_read_bptr, perform_read_blen hidle, ?blen, ?bdata⟩⟩
  case blen =>
    rw [perform_write_blen v hidle]
    split
    next habove => rw [writeLen_of_above habove]
    next hwithin => exact ⟨_, rfl, writeLen_resizes hwithin⟩
  case bdata =>
    rw [perform_write_bdata v hidle]
    split
    next hinside =>
      have hbyte := List.getElem?_eq_getElem hinside
      exact ⟨⟨_, hbyte, perform_read_bdata_of_inside hidle hbyte⟩, _, rfl, writeData_overwrites hinside⟩
    next hpast =>
      refine ⟨perform_read_bdata_of_past hidle (Nat.le_of_not_lt hpast), ?_⟩
      split
      next hend =>
        obtain ⟨hat, hroom⟩ := hend
        exact ⟨_, rfl, writeData_appends hat hroom⟩
      next hfull => rw [writeData_of_past hpast hfull]

end Sys2Proof.Machine
end

section
/-! SUPPORT. The opcode table and the decoder (30_encoding.md R83 to R85): a row's mask bounds each field of a word, the
decoder checks the same bounds, and the opcodes of the rows are pairwise different. -/

namespace Sys2Proof

/-! ### The fields of a word (R81) -/

/-- The six fields below OPC, from RD to IMM. -/
def fieldsOf (w : Word) : List Nat := [rdOf w, raOf w, rbOf w, rcOf w, reOf w, immOf w]

theorem word_eq_iff_fields {v w : Word} : v = w ↔ opcOf v = opcOf w ∧ fieldsOf v = fieldsOf w := by
  constructor
  · rintro rfl
    exact ⟨rfl, rfl⟩
  · rintro ⟨hopc, hfields⟩
    simp only [fieldsOf, List.cons.injEq, and_true] at hfields
    obtain ⟨hrd, hra, hrb, hrc, hre, himm⟩ := hfields
    rw [← assemble_fields v, ← assemble_fields w, hopc, hrd, hra, hrb, hrc, hre, himm]

theorem opcOf_lt (w : Word) : opcOf w < 256 := BitVec.isLt _

theorem fieldsOf_lt (w : Word) : ∀ v ∈ fieldsOf w, v < 16 := by
  simp only [fieldsOf, List.forall_mem_cons, List.not_mem_nil, false_imp_iff, implies_true, and_true]
  exact ⟨BitVec.isLt _, BitVec.isLt _, BitVec.isLt _, BitVec.isLt _, BitVec.isLt _, BitVec.isLt _⟩

theorem opcOf_and (v w : Word) : opcOf (v &&& w) = opcOf v &&& opcOf w := by
  simp only [opcOf, BitVec.extractLsb'_and, BitVec.toNat_and]

theorem fieldsOf_and (v w : Word) : fieldsOf (v &&& w) = List.zipWith (· &&& ·) (fieldsOf v) (fieldsOf w) := by
  simp only [fieldsOf, rdOf, raOf, rbOf, rcOf, reOf, immOf, BitVec.extractLsb'_and, BitVec.toNat_and,
    List.zipWith_cons_cons, List.zipWith_nil_left]

/-! ### A row as bounds on the fields (R82 to R84) -/

/-- The numbers `limits` bound the six fields from RD to IMM: 1 an unused field, 4 and 8 an index, 2 the lsb
immediate. -/
def Within (limits : List Nat) (w : Word) : Prop := List.Forall₂ (· < ·) (fieldsOf w) limits

/-- The opcode of the words that the row selects. -/
def OpcodeRow.opcode (row : OpcodeRow) : Nat := opcOf row.pattern

/-- The bound that each nibble of the row's mask sets. -/
def OpcodeRow.limits (row : OpcodeRow) : List Nat := (fieldsOf row.mask).map (16 - ·)

/-- The masks a field can have: none of its bits is fixed to 0, or the top one, two, three or all four are. -/
def fieldMasks : List Nat := [0, 8, 12, 14, 15]

/-- A field under its mask is 0 exactly when it is below the bound the mask sets. -/
theorem and_fieldMask_eq_zero_iff : ∀ v < 16, ∀ m ∈ fieldMasks, (v &&& m = 0 ↔ v < 16 - m) := by decide

/-- The same field by field: all are 0 under their masks exactly when each is below its bound. -/
theorem zipWith_and_eq_zeros_iff {vs ms : List Nat} (hlen : vs.length = ms.length) (hvs : ∀ v ∈ vs, v < 16)
    (hms : ∀ m ∈ ms, m ∈ fieldMasks) :
    List.zipWith (· &&& ·) vs ms = List.replicate vs.length 0 ↔ List.Forall₂ (· < ·) vs (ms.map (16 - ·)) := by
  induction vs generalizing ms with
  | nil => simp [List.length_eq_zero_iff.1 hlen.symm]
  | cons v vs ih =>
    obtain ⟨m, ms, rfl⟩ := List.exists_cons_of_length_eq_add_one hlen.symm
    rw [List.forall_mem_cons] at hvs hms
    obtain ⟨hv, hvs⟩ := hvs
    obtain ⟨hm, hms⟩ := hms
    simp [List.replicate_succ, and_fieldMask_eq_zero_iff v hv m hm, ih (Nat.succ.inj hlen) hvs hms]

/-- Every row fixes the whole of OPC, and every other field to 0 under one of `fieldMasks`. -/
theorem opcodeRows_shape : ∀ row ∈ opcodeRows, opcOf row.mask = 255 ∧
    fieldsOf row.pattern = List.replicate 6 0 ∧ ∀ m ∈ fieldsOf row.mask, m ∈ fieldMasks := by
  decide

/-- A row selects the words with its opcode and with every field within its bounds. -/
theorem selects_iff_within {row : OpcodeRow} (hrow : row ∈ opcodeRows) (w : Word) :
    row.selects w = true ↔ opcOf w = row.opcode ∧ Within row.limits w := by
  obtain ⟨hopc, hzero, hmasks⟩ := opcodeRows_shape row hrow
  have hwhole : opcOf w &&& 255 = opcOf w := Nat.and_two_pow_sub_one_of_lt_two_pow (n := 8) (opcOf_lt w)
  rw [OpcodeRow.selects, beq_iff_eq, word_eq_iff_fields, opcOf_and, hopc, hwhole, fieldsOf_and, hzero]
  exact and_congr_right fun _ => zipWith_and_eq_zeros_iff rfl (fieldsOf_lt w) hmasks

/-- The opcode table as opcodes and bounds. -/
def fieldLimits : List (Nat × List Nat) := [
  (0x01, [1, 8, 1, 1, 1, 1]), (0x02, [8, 1, 1, 1, 1, 1]), (0x03, [8, 8, 1, 1, 1, 1]), (0x04, [8, 8, 1, 1, 1, 1]),
  (0x05, [4, 8, 1, 1, 1, 1]), (0x06, [8, 4, 1, 1, 1, 1]), (0x10, [8, 8, 1, 1, 1, 1]), (0x11, [8, 8, 1, 1, 1, 1]),
  (0x12, [8, 8, 1, 1, 1, 1]), (0x13, [8, 8, 8, 1, 1, 1]), (0x14, [8, 8, 8, 8, 1, 1]), (0x20, [1, 1, 1, 1, 1, 1]),
  (0x28, [8, 8, 8, 8, 1, 1]), (0x29, [8, 8, 8, 1, 1, 1]), (0x2A, [8, 8, 8, 8, 8, 1]), (0x30, [8, 8, 8, 8, 8, 1]),
  (0x40, [8, 8, 8, 1, 1, 1]), (0x41, [8, 8, 8, 1, 1, 1]), (0x42, [8, 8, 8, 1, 1, 1]), (0x43, [8, 8, 1, 1, 1, 1]),
  (0x44, [8, 8, 1, 1, 1, 2]), (0x50, [4, 8, 8, 1, 1, 1]), (0x51, [4, 8, 1, 1, 1, 2]), (0x52, [4, 4, 4, 1, 1, 1]),
  (0x53, [4, 4, 4, 1, 1, 1]), (0x54, [8, 4, 1, 1, 1, 1]), (0x55, [4, 8, 1, 1, 1, 1]), (0x56, [4, 1, 1, 1, 1, 1]),
  (0x60, [4, 8, 1, 1, 4, 1]), (0x61, [8, 8, 4, 8, 1, 1]), (0x62, [8, 8, 8, 1, 1, 1]), (0x63, [8, 8, 8, 8, 1, 1]),
  (0x64, [8, 8, 8, 1, 1, 1]), (0x65, [8, 8, 8, 1, 1, 1]), (0x66, [8, 8, 8, 4, 1, 1])]

theorem fieldLimits_eq : opcodeRows.map (fun row => (row.opcode, row.limits)) = fieldLimits := by decide

/-- Some row selects the word exactly when the bounds of its opcode hold. -/
theorem selected_iff_fieldLimits (w : Word) :
    (∃ row ∈ opcodeRows, row.selects w = true) ↔ ∃ limits, (opcOf w, limits) ∈ fieldLimits ∧ Within limits w := by
  simp only [← fieldLimits_eq, List.mem_map, Prod.mk.injEq]
  constructor
  · rintro ⟨row, hrow, hsel⟩
    obtain ⟨hopc, hwithin⟩ := (selects_iff_within hrow w).1 hsel
    exact ⟨_, ⟨row, hrow, hopc.symm, rfl⟩, hwithin⟩
  · rintro ⟨_, ⟨row, hrow, hopc, rfl⟩, hwithin⟩
    exact ⟨row, hrow, (selects_iff_within hrow w).2 ⟨hopc.symm, hwithin⟩⟩

/-! ### What the decoder accepts (R84) -/

section
variable {α β : Type}

theorem exists_eq_ok_iff_isOk (check : Except Illegal α) : (∃ x, check = .ok x) ↔ check.isOk = true := by
  cases check with
  | ok x => simp [Except.toBool]
  | error why => simp [Except.toBool]

theorem isOk_map (f : α → β) (check : Except Illegal α) : (f <$> check).isOk = check.isOk := by
  cases check with
  | ok x => rfl
  | error why => rfl

/-- A check followed by the rest of the decoding succeeds when both do. -/
theorem isOk_bind (check : Except Illegal α) (rest : α → Except Illegal β) :
    (check >>= rest).isOk = true ↔ ∃ x, check = .ok x ∧ (rest x).isOk = true := by
  cases check with
  | ok x => simp [bind, Except.bind]
  | error why => simp [bind, Except.bind, Except.toBool]

end

@[simp] theorem unused_isOk_iff (fields : List Nat) : (unused fields).isOk = true ↔ ∀ v ∈ fields, v = 0 := by
  rw [← exists_eq_ok_iff_isOk, ← unused_eq_ok]
  exact ⟨fun ⟨_, h⟩ => h, fun h => ⟨_, h⟩⟩

@[simp] theorem index8_isOk_iff (v : Nat) : (index8 v).isOk = true ↔ v < 8 := by
  simp only [← exists_eq_ok_iff_isOk, index8_eq_ok]
  exact ⟨fun ⟨i, hi⟩ => hi ▸ i.isLt, fun h => ⟨⟨v, h⟩, rfl⟩⟩

@[simp] theorem index4_isOk_iff (v : Nat) : (index4 v).isOk = true ↔ v < 4 := by
  simp only [← exists_eq_ok_iff_isOk, index4_eq_ok]
  exact ⟨fun ⟨i, hi⟩ => hi ▸ i.isLt, fun h => ⟨⟨v, h⟩, rfl⟩⟩

@[simp] theorem immediate_isOk_iff (v : Nat) : (immediate v).isOk = true ↔ v < 2 := by
  simp only [← exists_eq_ok_iff_isOk, immediate_eq_ok]
  constructor
  · rintro ⟨imm, rfl, himm⟩
    omega
  · intro hv
    have hval : (BitVec.ofNat 4 v).toNat = v := Nat.mod_eq_of_lt (by omega)
    exact ⟨BitVec.ofNat 4 v, hval.symm, by omega⟩

/-- The decoder accepts a word exactly when the bounds of its opcode hold. For each of the 35 opcodes the
decoder's checks and the table's bounds are one conjunction in two orders; the last arm has no listed opcode. -/
theorem decode_isOk_iff_fieldLimits (w : Word) :
    (decode w).isOk = true ↔ ∃ limits, (opcOf w, limits) ∈ fieldLimits ∧ Within limits w := by
  unfold decode
  split
  case h_36 => simp_all [fieldLimits, Except.toBool]
  all_goals
    rename_i hopc
    simp [hopc, fieldLimits, Within, fieldsOf, isOk_bind, isOk_map, exists_eq_ok_iff_isOk, and_assoc, and_comm,
      and_left_comm]

/-- The decoder accepts a word exactly when some row selects it. -/
theorem decode_isOk_iff_selected (w : Word) :
    (decode w).isOk = true ↔ ∃ row ∈ opcodeRows, row.selects w = true :=
  (decode_isOk_iff_fieldLimits w).trans (selected_iff_fieldLimits w).symm

theorem decode_error_iff_isOk_false (w : Word) : (∃ why, decode w = .error why) ↔ (decode w).isOk = false := by
  cases decode w with
  | ok i => simp [Except.toBool]
  | error why => simp [Except.toBool]

/-! ### At most one row selects a word (R85) -/

theorem opcodeRows_opcodes_nodup : (opcodeRows.map OpcodeRow.opcode).Nodup := by decide

theorem length_filter_selects_le_one (w : Word) : (opcodeRows.filter fun row => row.selects w).length ≤ 1 := by
  have hsame : (opcodeRows.filter fun row => row.selects w).map OpcodeRow.opcode =
      List.replicate (opcodeRows.filter fun row => row.selects w).length (opcOf w) := by
    refine List.map_eq_replicate_iff.2 fun row hmem => ?_
    obtain ⟨hrow, hsel⟩ := List.mem_filter.1 hmem
    exact ((selects_iff_within hrow w).1 hsel).1.symm
  rw [← List.nodup_replicate (a := opcOf w), ← hsame]
  exact opcodeRows_opcodes_nodup.sublist (List.filter_sublist.map OpcodeRow.opcode)

/-- Settles O3: at most one row selects a word, and one does exactly when the decoder accepts it. -/
theorem decodeAcceptsExactlyTheTable : Obligations.DecodeAcceptsExactlyTheTable := by
  intro w
  have hle := length_filter_selects_le_one w
  have hpos := List.length_filter_pos_iff.trans (decode_isOk_iff_selected w).symm
  split
  next hok =>
    have hone := hpos.2 hok
    omega
  next hno =>
    have hnone := mt hpos.1 hno
    omega

end Sys2Proof

namespace Sys2Proof.Machine

/-! ### An illegal word written to CMD (R84) -/

/-- A step that performs the write of a word to CMD while BUSY = 0 issues the word (R89). -/
theorem step_write_cmd {s : State} {w : Word} {rest : List Input} (hinputs : s.inputs = .write 0x00 4 w :: rest)
    (hidle : statusBusy s.status = false) : step s = issue w { s with inputs := rest } := by
  have hstep : step s = perform (.write 0x00 4 w) { s with inputs := rest } := by rw [step, hinputs]
  rw [hstep, perform_write_of_defined (by decide) rfl]
  simp [writeReg, hidle, hostReg]

theorem raise_illegal_accept (w : Word) (s : State) :
    raise .illegal (accept w s) = { s with cmd := w, status := mkStatus false true true 1 } := by
  rw [raise, completedStatus_err]
  rfl

/-- Settles O2: the decoder accepts exactly the selected words; an illegal one raises ILLEGAL in the state that has
accepted it. -/
theorem illegalWordCompletesWithIllegal : Obligations.IllegalWordCompletesWithIllegal := by
  refine ⟨fun w => ?decoder, fun s w rest why hinputs hidle hw => ?step⟩
  case decoder =>
    rw [decode_error_iff_isOk_false, ← Bool.not_eq_true, decode_isOk_iff_selected]
    simp only [not_exists, not_and, Bool.not_eq_true]
  case step => rw [step_write_cmd hinputs hidle, issue_of_decode_error hw, raise_illegal_accept]

end Sys2Proof.Machine
end

section
/-! SUPPORT. Decoding a command's own word (30_encoding.md R87), and how a command that writes one buffer ends. -/

namespace Sys2Proof

theorem index8_val (i : Idx8) : index8 i.val = .ok i := index8_eq_ok.2 rfl

theorem index4_val (i : Idx4) : index4 i.val = .ok i := index4_eq_ok.2 rfl

theorem immediate_toNat {imm : BitVec 4} (h : immOk imm = true) : immediate imm.toNat = .ok imm :=
  immediate_eq_ok.2 ⟨rfl, of_decide_eq_true h⟩

/-- Each field of the word reads back the operand that was assembled into it. -/
theorem decode_encode (i : Instr) (h : i.wellFormed = true) : decode (encode i) = .ok i := by
  cases i with
  | fsqrt d a imm | ptfromx d a imm =>
    simp (disch := omega) only [encode, decode, opcOf_assemble, rdOf_assemble, raOf_assemble, rbOf_assemble,
      rcOf_assemble, reOf_assemble, immOf_assemble, index8_val, index4_val, immediate_toNat h]
    rfl
  | _ =>
    simp (disch := omega) only [encode, decode, opcOf_assemble, rdOf_assemble, raOf_assemble, rbOf_assemble,
      rcOf_assemble, reOf_assemble, immOf_assemble, index8_val, index4_val]
    rfl

end Sys2Proof

namespace Sys2Proof.Machine

section
variable {i : Instr} {s : State}

theorem complete_writeB_wroteB (d : Idx8) (x : Bytes) (s : State) : WroteB d x s (complete (s.writeB d x)) := by
  refine ⟨rfl, by simp, fun j m hj => ?_⟩
  simp [byteAt_eq_getElem?, hj]

theorem completes_of_exec_eq_commit_writeB {d : Idx8} {x : Bytes} (h : exec i s = commit (.ok (s.writeB d x)) s) :
    ∃ t, exec i s = .next t ∧ CompletedOk s t ∧ WroteB d x s t :=
  ⟨_, h, complete_completedOk (State.writeB_status ..), complete_writeB_wroteB d x s⟩

theorem fails_of_exec_eq_commit_error {e : Err} (hclass : classS i = false) (h : exec i s = commit (.error e) s) :
    Fails i s e :=
  ⟨_, h.trans (commit_error e s), raise_failedWith e s, by simp [hclass]⟩

end

end Sys2Proof.Machine
end

section
/-! SUPPORT. BitEncoding (40_bitencoding.md R100 to R105): `minLen` is the least number of bytes that hold an integer,
so `leftEncode` and `rightEncode` are the encodings R100 defines; the padding of BYTEPAD and the slice of SUBSTR. -/

namespace Sys2Proof.Machine

/-! ### The least number of bytes of an integer (R100) -/

theorem bitlength_le_iff {x k : Nat} : bitlength x ≤ k ↔ x < 2 ^ k := by
  unfold bitlength
  split
  next hzero => simp [hzero]
  next hpos => rw [Nat.succ_le_iff, Nat.log2_lt hpos]

theorem one_le_minLen (x : Nat) : 1 ≤ minLen x := le_max_left ..

theorem minLen_le_iff {x n : Nat} (hn : 1 ≤ n) : minLen x ≤ n ↔ x < 256 ^ n := by
  have hbits : bitlength x ≤ 8 * n ↔ x < 256 ^ n := by rw [bitlength_le_iff, pow_mul]; norm_num
  rw [← hbits, minLen]
  omega

theorem lt_pow_minLen (x : Nat) : x < 256 ^ minLen x := (minLen_le_iff (one_le_minLen x)).1 le_rfl

/-- One byte fewer does not hold x. -/
theorem minLen_least (x : Nat) : minLen x = 1 ∨ 256 ^ (minLen x - 1) ≤ x := by
  have hpos := one_le_minLen x
  refine or_iff_not_imp_left.2 fun hne => Nat.le_of_not_lt fun hlt => ?_
  have hle := (minLen_le_iff (by omega)).2 hlt
  omega

theorem os2ip_i2osp_minLen (x : Nat) : os2ip (i2osp x (minLen x)) = x := by
  rw [os2ip_i2osp, Nat.mod_eq_of_lt (lt_pow_minLen x)]

/-- The domain of the encodings (R100): the length fits in its byte. -/
theorem minLen_le_255_iff {x : Nat} : minLen x ≤ 255 ↔ x < 2 ^ 2040 := by
  rw [minLen_le_iff (by omega), show 256 = 2 ^ 8 from rfl, ← pow_mul]

theorem lt_minLen_iff {x : Nat} : 255 < minLen x ↔ 2 ^ 2040 ≤ x := by
  rw [← not_le, minLen_le_255_iff, not_lt]

/-! ### The encodings (R100) -/

section
variable {x : Nat}

theorem lengthByte_toNat (h : x < 2 ^ 2040) : (BitVec.ofNat 8 (minLen x)).toNat = minLen x := by
  have hlen := minLen_le_255_iff.2 h
  rw [BitVec.toNat_ofNat, Nat.mod_eq_of_lt (by omega)]

theorem leftEncode_isLeftEncoding (h : x < 2 ^ 2040) : IsLeftEncoding x (leftEncode x) := by
  refine ⟨_, _, rfl, ?_⟩
  rw [lengthByte_toNat h]
  exact ⟨i2osp_length .., one_le_minLen x, os2ip_i2osp_minLen x, minLen_least x⟩

theorem rightEncode_isRightEncoding (h : x < 2 ^ 2040) : IsRightEncoding x (rightEncode x) := by
  refine ⟨_, _, rfl, ?_⟩
  rw [lengthByte_toNat h]
  exact ⟨i2osp_length .., one_le_minLen x, os2ip_i2osp_minLen x, minLen_least x⟩

theorem leftEncode_length_le (h : x < 2 ^ 2040) : (leftEncode x).length ≤ 256 := by
  have hlen := minLen_le_255_iff.2 h
  rw [leftEncode, List.length_cons, i2osp_length]
  omega

theorem rightEncode_length_le (h : x < 2 ^ 2040) : (rightEncode x).length ≤ 256 := by
  have hlen := minLen_le_255_iff.2 h
  rw [rightEncode, List.length_append, i2osp_length, List.length_singleton]
  omega

end

/-- The lengths and widths that ENCSTR and BYTEPAD encode are far inside the domain of `leftEncode`. -/
theorem leftEncode_isLeftEncoding_of_lt_two_pow_64 {x : Nat} (h : x < 2 ^ 64) : IsLeftEncoding x (leftEncode x) :=
  leftEncode_isLeftEncoding (h.trans (pow_lt_pow_right₀ one_lt_two (by decide)))

/-! ### The padding of BYTEPAD and the slice of SUBSTR (R100) -/

theorem padTo_lt (n : Nat) {w : Nat} (hw : w ≠ 0) : padTo n w < w := Nat.mod_lt _ (Nat.pos_of_ne_zero hw)

theorem dvd_add_padTo (n : Nat) {w : Nat} (hw : w ≠ 0) : w ∣ n + padTo n w := by
  have hmod : n % w < w := Nat.mod_lt _ (Nat.pos_of_ne_zero hw)
  have hround : n + (w - n % w) = w * (n / w + 1) := by
    have hdiv := Nat.div_add_mod n w
    rw [mul_add]
    omega
  rw [padTo, Nat.dvd_iff_mod_eq_zero, Nat.add_mod_mod, hround, Nat.mul_mod_right]

theorem substring_of_empty {x : Bytes} {lo hi : Nat} (h : hi ≤ lo ∨ x.length ≤ lo) : substring x lo hi = [] := if_pos h

section
variable {x : Bytes} {lo hi : Nat} (h : ¬ (hi ≤ lo ∨ x.length ≤ lo))
include h

theorem substring_length : (substring x lo hi).length = min hi x.length - lo := by
  rw [substring, if_neg h, slice_length]
  omega

theorem getElem?_substring {j : Nat} (hj : j < (substring x lo hi).length) : (substring x lo hi)[j]? = x[lo + j]? := by
  rw [substring_length h] at hj
  rw [substring, if_neg h, slice, List.getElem?_take_of_lt hj, List.getElem?_drop]

end

/-! ### What each command commits (R101 to R105) -/

section
variable (d a b c : Idx8) {s : State}

theorem exec_lenc_of_lt (h : os2ip (s.readB a) < 2 ^ 2040) :
    exec (.lenc d a) s = commit (.ok (s.writeB d (leftEncode (os2ip (s.readB a))))) s :=
  congrArg (commit · s) (if_neg (minLen_le_255_iff.2 h).not_gt)

theorem exec_renc_of_lt (h : os2ip (s.readB a) < 2 ^ 2040) :
    exec (.renc d a) s = commit (.ok (s.writeB d (rightEncode (os2ip (s.readB a))))) s :=
  congrArg (commit · s) (if_neg (minLen_le_255_iff.2 h).not_gt)

theorem exec_lenc_of_le (h : 2 ^ 2040 ≤ os2ip (s.readB a)) : exec (.lenc d a) s = commit (.error .domainError) s :=
  congrArg (commit · s) (if_pos (lt_minLen_iff.2 h))

theorem exec_renc_of_le (h : 2 ^ 2040 ≤ os2ip (s.readB a)) : exec (.renc d a) s = commit (.error .domainError) s :=
  congrArg (commit · s) (if_pos (lt_minLen_iff.2 h))

theorem exec_encstr (s : State) : exec (.encstr d a) s = commit
    (if s.params.bmax < (leftEncode (8 * (s.readB a).length)).length + (s.readB a).length then .error .capacity
     else .ok (s.writeB d (leftEncode (8 * (s.readB a).length) ++ s.readB a))) s := by
  rw [← List.length_append]
  rfl

theorem exec_bytepad_of_zero (h : (s.readN b).toNat = 0) :
    exec (.bytepad d a b) s = commit (.error .domainError) s :=
  congrArg (commit · s) (if_pos h)

/-- The number of zero bytes that BYTEPAD appends. -/
def bytepadPadding (a b : Idx8) (s : State) : Nat :=
  padTo ((leftEncode (s.readN b).toNat).length + (s.readB a).length) (s.readN b).toNat

theorem exec_bytepad_of_ne_zero (h : (s.readN b).toNat ≠ 0) : exec (.bytepad d a b) s = commit
    (if s.params.bmax < (leftEncode (s.readN b).toNat).length + (s.readB a).length + bytepadPadding a b s
     then .error .capacity
     else .ok (s.writeB d (leftEncode (s.readN b).toNat ++ s.readB a ++ zeros (bytepadPadding a b s)))) s := by
  rw [bytepadPadding, ← List.length_append]
  exact congrArg (commit · s) (if_neg h)

theorem exec_substr (s : State) : exec (.substr d a b c) s =
    commit (.ok (s.writeB d (substring (s.readB a) (s.readN b).toNat (s.readN c).toNat))) s := rfl

end

/-! ### The obligations -/

/-- Settles O19: SUBSTR always completes; the two cases are those of `substring`. -/
theorem substrClampsToTheLength : Obligations.SubstrClampsToTheLength := by
  intro d a b c s
  obtain ⟨t, hexec, hok, hwrote⟩ := completes_of_exec_eq_commit_writeB (exec_substr d a b c s)
  refine ⟨decode_encode (.substr d a b c) rfl, t, _, hexec, hok, hwrote, ?_⟩
  split
  next hempty => exact substring_of_empty hempty
  next hslice => exact ⟨substring_length hslice, fun j hj => getElem?_substring hslice hj⟩

/-- Settles O16: 2^2040 is where the least number of bytes stops fitting in the length byte. -/
theorem lencAndRencEncodeTheInteger : Obligations.LencAndRencEncodeTheInteger := by
  intro d a s
  refine ⟨decode_encode (.lenc d a) rfl, decode_encode (.renc d a) rfl, fun hlt => ⟨?lenc, ?renc⟩, fun hle => ?domain⟩
  case lenc =>
    obtain ⟨t, hexec, hok, hwrote⟩ := completes_of_exec_eq_commit_writeB (exec_lenc_of_lt d a hlt)
    exact ⟨t, _, hexec, hok, hwrote, leftEncode_length_le hlt, leftEncode_isLeftEncoding hlt⟩
  case renc =>
    obtain ⟨t, hexec, hok, hwrote⟩ := completes_of_exec_eq_commit_writeB (exec_renc_of_lt d a hlt)
    exact ⟨t, _, hexec, hok, hwrote, rightEncode_length_le hlt, rightEncode_isRightEncoding hlt⟩
  case domain =>
    exact ⟨fails_of_exec_eq_commit_error rfl (exec_lenc_of_le d a hle),
      fails_of_exec_eq_commit_error rfl (exec_renc_of_le d a hle)⟩

/-- Settles O17: the bit length of a buffer within BMAX is below 2^34, so it has a left encoding. -/
theorem encstrPrefixesTheBitLength : Obligations.EncstrPrefixesTheBitLength := by
  intro d a s hbmax hlen
  have hexec := exec_encstr d a s
  refine ⟨decode_encode (.encstr d a) rfl, _, leftEncode_isLeftEncoding_of_lt_two_pow_64 (by omega), ?_⟩
  split
  next hover => exact fails_of_exec_eq_commit_error rfl (by rw [hexec, if_pos hover])
  next hfits => exact completes_of_exec_eq_commit_writeB (by rw [hexec, if_neg hfits])

/-- Settles O18: `padTo` is below the width and reaches a multiple of it. -/
theorem bytepadPadsToAMultiple : Obligations.BytepadPadsToAMultiple := by
  intro d a b s
  refine ⟨decode_encode (.bytepad d a b) rfl, ?_⟩
  split
  next hzero => exact fails_of_exec_eq_commit_error rfl (exec_bytepad_of_zero d a b hzero)
  next hwidth =>
    have hexec := exec_bytepad_of_ne_zero d a b hwidth
    refine ⟨_, bytepadPadding a b s, leftEncode_isLeftEncoding_of_lt_two_pow_64 (s.readN b).isLt, padTo_lt _ hwidth,
      dvd_add_padTo _ hwidth, ?_⟩
    split
    next hover => exact fails_of_exec_eq_commit_error rfl (by rw [hexec, if_pos hover])
    next hfits => exact completes_of_exec_eq_commit_writeB (by rw [hexec, if_neg hfits])

end Sys2Proof.Machine
end

section
/-! SUPPORT. The step mappings of the permutation (41_keccak.md R121 to R124), lane by lane: theta, chi and iota, the
round constants from their linear-feedback register, rho+pi from its generating rule. -/

namespace Sys2Proof.Machine

/-! ### Lanes by column and row (R120) -/

theorem lane_congr (a : Lanes) {x y x' y' : Nat} (hx : x % 5 = x' % 5) (hy : y % 5 = y' % 5) :
    lane a x y = lane a x' y' := by
  simp only [lane, hx, hy]

theorem lane_ofFn (g : Fin 25 → Lane) (x y : Nat) :
    lane (Vector.ofFn g) x y = g ⟨x % 5 + 5 * (y % 5), by omega⟩ :=
  Vector.getElem_ofFn _

/-! ### theta, chi and iota (R121, R123, R124) -/

theorem getElem_columnParity (a : Lanes) {x : Nat} (hx : x < 5) : (columnParity a)[x] = parityOf a x :=
  Vector.getElem_ofFn hx

theorem getElem_theta (a : Lanes) (i : Fin 25) : (theta a)[i] =
    a[i] ^^^ (parityOf a ((i.val % 5 + 4) % 5) ^^^ (parityOf a ((i.val % 5 + 1) % 5)).rotateLeft 1) := by
  simp only [theta, thetaEffect, Fin.getElem_fin, Vector.getElem_ofFn, getElem_columnParity]

theorem lane_chi (a : Lanes) (x y : Nat) :
    lane (chi a) x y = lane a x y ^^^ (~~~(lane a (x + 1) y) &&& lane a (x + 2) y) := by
  have hcol : (x % 5 + 5 * (y % 5)) % 5 = x % 5 := by omega
  have hrow : (x % 5 + 5 * (y % 5)) / 5 = y % 5 := by omega
  simp only [chi, lane_ofFn, hcol, hrow]
  rw [lane_congr a (Nat.mod_add_mod x 5 1) (Nat.mod_mod y 5), lane_congr a (Nat.mod_add_mod x 5 2) (Nat.mod_mod y 5)]
  rfl

theorem getElem_iota (a : Lanes) (ir : Fin 24) (i : Fin 25) :
    (iota a ir)[i] = if i = 0 then a[i] ^^^ roundConstant[ir] else a[i] := by
  by_cases hi : i = 0
  · subst hi
    exact Vector.getElem_set_self (by decide)
  · rw [if_neg hi]
    exact Vector.getElem_set_ne _ _ fun h => hi (Fin.ext h.symm)

/-! ### The round constants (R124) -/

/-- The lane whose bit 2^j - 1, for j from 0 to 6, is the register's output in step t + j. -/
def lfsrConstant (t : Nat) : Lane :=
  (List.range 7).foldr (fun j w => (if (lfsr (j + t)).getLsbD 0 then BitVec.twoPow 64 (2 ^ j - 1) else 0) ||| w) 0

/-- The table agrees with the generating rule in each of its 24 entries. -/
theorem roundConstant_eq_lfsrConstant : ∀ ir : Fin 24, roundConstant[ir] = lfsrConstant (7 * ir.val) := by decide

/-- A bit of a union of single bits. -/
theorem getLsbD_foldr_twoPow (place : Nat → Nat) (bit : Nat → Bool) (js : List Nat) {z : Nat} (hz : z < 64) :
    (js.foldr (fun j w => (if bit j then BitVec.twoPow 64 (place j) else 0) ||| w) 0#64).getLsbD z =
      js.any fun j => z == place j && bit j := by
  induction js with
  | nil => exact BitVec.getLsbD_zero
  | cons j js ih =>
    have hbit : (if bit j then BitVec.twoPow 64 (place j) else 0#64).getLsbD z = (z == place j && bit j) := by
      cases bit j
      case false => simp
      case true =>
        rw [if_pos rfl, BitVec.getLsbD_twoPow, Bool.and_true, Bool.eq_iff_iff]
        simp only [Bool.and_eq_true, decide_eq_true_eq, beq_iff_eq]
        omega
    rw [List.foldr_cons, List.any_cons, BitVec.getLsbD_or, ih]
    exact congrArg (· || _) hbit

/-- Settles O20: each mapping's own equation, and for the constants the table read as the register's outputs. -/
theorem thetaChiAndIotaFollowTheRules : Obligations.ThetaChiAndIotaFollowTheRules := by
  refine ⟨getElem_theta, fun a x y => ?chi, getElem_iota, fun ir z => ?constants⟩
  case chi =>
    rw [lane_chi, lane_congr a (Nat.mod_mod (x.val + 1) 5) rfl, lane_congr a (Nat.mod_mod (x.val + 2) 5) rfl]
  case constants =>
    rw [roundConstant_eq_lfsrConstant]
    exact getLsbD_foldr_twoPow (fun j => 2 ^ j - 1) (fun j => (lfsr (j + 7 * ir.val)).getLsbD 0) _ z.isLt

/-! ### rho+pi (R122) -/

/-- The table of sources sends (x, y) to (y, 2x + 3y). -/
theorem getElem_piSource : ∀ x y : Fin 5,
    piSource[y.val + 5 * ((2 * x.val + 3 * y.val) % 5)] = ⟨x.val + 5 * y.val, by omega⟩ := by
  decide

theorem lane_rhoPi (a : Lanes) {x y : Nat} (hx : x < 5) (hy : y < 5) :
    lane (rhoPi a) y (2 * x + 3 * y) = (lane a x y).rotateLeft rhoOffset[x + 5 * y] := by
  have hsource : piSource[y + 5 * ((2 * x + 3 * y) % 5)] = ⟨x + 5 * y, by omega⟩ := getElem_piSource ⟨x, hx⟩ ⟨y, hy⟩
  rw [rhoPi, lane_ofFn]
  simp only [Fin.getElem_fin, Nat.mod_eq_of_lt hx, Nat.mod_eq_of_lt hy, hsource, lane]

theorem rhoWalk_lt (t : Nat) : (rhoWalk t).1 < 5 ∧ (rhoWalk t).2 < 5 := by
  induction t with
  | zero => decide
  | succ t ih => exact ⟨ih.2, Nat.mod_lt _ (by decide)⟩

theorem rhoWalk_index_lt (t : Nat) : (rhoWalk t).1 + 5 * (rhoWalk t).2 < 25 := by
  have hlt := rhoWalk_lt t
  omega

theorem getElem_rhoOffset : ∀ t : Fin 24, rhoOffset[(rhoWalk t.val).1 + 5 * (rhoWalk t.val).2]'(rhoWalk_index_lt _) =
    (t.val + 1) * (t.val + 2) / 2 % 64 := by
  decide

/-- The orbit of (1, 0) has all 24 places but (0, 0). -/
theorem rhoWalk_covers : ∀ x y : Fin 5, (x.val, y.val) = (0, 0) ∨ ∃ t : Fin 24, rhoWalk t.val = (x.val, y.val) := by
  decide

/-- Settles O21: rho+pi by its tables, and the tables along the orbit. -/
theorem rhoPiFollowsTheGeneratingRule : Obligations.RhoPiFollowsTheGeneratingRule := by
  refine ⟨fun a t => ?orbit, fun a => ?origin, rhoWalk_covers⟩
  case orbit =>
    obtain ⟨hx, hy⟩ := rhoWalk_lt t.val
    rw [lane_rhoPi a hx hy, getElem_rhoOffset]
  case origin =>
    have hzero : rhoOffset[0 + 5 * 0] = 0 := rfl
    rw [lane_rhoPi a (x := 0) (y := 0) (by decide) (by decide), hzero, BitVec.rotateLeft_def]
    simp [BitVec.ushiftRight_eq_zero]

end Sys2Proof.Machine
end

section
/-! SUPPORT. The commands KP, ALD and AST (41_keccak.md R126 to R128): the rounds one after another, and the lane order
of 20_memory.md R53. -/

namespace Sys2Proof.Machine

/-! ### A command that writes A -/

theorem completes_of_exec_eq_commit_writeA {i : Instr} {s : State} {a : Lanes}
    (h : exec i s = commit (.ok (s.writeA a)) s) :
    ∃ t, exec i s = .next t ∧ CompletedOk s t ∧ t.a = a ∧ t = { s with a := t.a, status := t.status } :=
  ⟨_, h, complete_completedOk (State.writeA_status ..), rfl, rfl⟩

/-! ### The rounds in order (R125) -/

/-- The state after the first n rounds. -/
def keccakRounds (a : Lanes) (n : Nat) : Lanes := ((List.finRange 24).take n).foldl keccakRound a

theorem keccakRounds_zero (a : Lanes) : keccakRounds a 0 = a := rfl

theorem keccakRounds_succ (a : Lanes) (ir : Fin 24) :
    keccakRounds a (ir.val + 1) = iota (chi (rhoPi (theta (keccakRounds a ir.val)))) ir := by
  have hir : ir.val < (List.finRange 24).length := by simp
  rw [keccakRounds, List.take_add_one, List.getElem?_eq_getElem hir, List.getElem_finRange, List.foldl_append]
  rfl

theorem keccakRounds_all (a : Lanes) : keccakRounds a 24 = keccakP a := rfl

theorem exec_kp (s : State) : exec .kp s = commit (.ok (s.writeA (keccakRounds s.a 24))) s := by
  rw [keccakRounds_all]
  rfl

/-- Settles O22: the chain is the state after each number of rounds. -/
theorem kpAppliesTwentyFourRounds : Obligations.KpAppliesTwentyFourRounds := by
  refine ⟨decode_encode .kp rfl, fun s => ?_⟩
  obtain ⟨t, hexec, hok, ha, hframe⟩ := completes_of_exec_eq_commit_writeA (exec_kp s)
  rw [ha] at hframe
  exact ⟨t, keccakRounds s.a, hexec, hok, keccakRounds_zero s.a, keccakRounds_succ s.a, hframe⟩

/-! ### Little-endian integers (00_scope.md R17) -/

theorem leInt_lt (x : Bytes) : leInt x < 256 ^ x.length := by
  induction x with
  | nil => simp [leInt]
  | cons byte x ih =>
    have hbyte := byte.isLt
    rw [leInt, List.length_cons, pow_succ]
    omega

/-- Digit j of the integer, in base 256, is byte j. -/
theorem leInt_digit (x : Bytes) {j : Nat} (hj : j < x.length) : leInt x / 256 ^ j % 256 = x[j].toNat := by
  induction x generalizing j with
  | nil => exact absurd hj (Nat.not_lt_zero j)
  | cons byte x ih =>
    have hbyte := byte.isLt
    rw [leInt]
    cases j with
    | zero =>
      rw [pow_zero, List.getElem_cons_zero]
      omega
    | succ j =>
      have hrest : (byte.toNat + 256 * leInt x) / 256 = leInt x := by omega
      rw [pow_succ', ← Nat.div_div_eq_div_mul, hrest, List.getElem_cons_succ, ih (Nat.lt_of_succ_lt_succ hj)]

/-! ### Bytes of a lane (20_memory.md R53) -/

theorem extractLsb'_le64 {x : Bytes} (hx : x.length = 8) {j : Nat} (hj : j < x.length) :
    (le64 x).extractLsb' (8 * j) 8 = x[j] := by
  have hlt : leInt x < 2 ^ 64 := (leInt_lt x).trans_eq (by rw [hx]; norm_num)
  apply BitVec.eq_of_toNat_eq
  rw [BitVec.extractLsb'_toNat, le64, BitVec.toNat_ofNat, Nat.mod_eq_of_lt hlt, Nat.shiftRight_eq_div_pow, pow_mul]
  exact leInt_digit x hj

theorem getElem?_le64inv (v : Lane) {j : Nat} (hj : j < 8) : (le64inv v)[j]? = some (v.extractLsb' (8 * j) 8) := by
  rw [le64inv, List.getElem?_map, List.getElem?_range hj, Option.map_some]

theorem getElem?_slice (x : Bytes) {lo hi j : Nat} (hj : j < hi - lo) : (slice x lo hi)[j]? = x[lo + j]? := by
  rw [slice, List.getElem?_take_of_lt hj, List.getElem?_drop]

/-! ### The 25 lanes as 200 bytes (20_memory.md R53) -/

theorem lanesOfBytes_extract {x : Bytes} (hx : x.length = 200) (i : Fin 25) (j : Fin 8) :
    x[8 * i.val + j.val]? = some (((lanesOfBytes x)[i]).extractLsb' (8 * j.val) 8) := by
  have hlen : (slice x (8 * i.val) (8 * i.val + 8)).length = 8 := by rw [slice_length]; omega
  have hlane : (lanesOfBytes x)[i] = le64 (slice x (8 * i.val) (8 * i.val + 8)) := Vector.getElem_ofFn i.isLt
  rw [hlane, extractLsb'_le64 hlen (by omega), ← List.getElem?_eq_getElem, getElem?_slice x (by omega)]

/-- In a concatenation of strings of n bytes, byte n·i + j is byte j of the i-th. -/
theorem getElem?_flatMap_of_length_eq {α : Type} {f : α → Bytes} {n : Nat} (hf : ∀ v, (f v).length = n)
    (l : List α) {i j : Nat} (hi : i < l.length) (hj : j < n) : (l.flatMap f)[n * i + j]? = (f l[i])[j]? := by
  induction l generalizing i with
  | nil => exact absurd hi (Nat.not_lt_zero i)
  | cons v l ih =>
    rw [List.flatMap_cons]
    cases i with
    | zero => rw [mul_zero, zero_add, List.getElem?_append_left (by rw [hf]; exact hj), List.getElem_cons_zero]
    | succ i =>
      have hindex : n * (i + 1) + j = n + (n * i + j) := by ring
      rw [hindex, List.getElem?_append_right (by rw [hf]; omega), hf, Nat.add_sub_cancel_left,
        ih (Nat.lt_of_succ_lt_succ hi), List.getElem_cons_succ]

theorem bytesOfLanes_length (a : Lanes) : (bytesOfLanes a).length = 200 := by
  simp [bytesOfLanes, List.length_flatMap]

theorem getElem?_bytesOfLanes (a : Lanes) (i : Fin 25) (j : Fin 8) :
    (bytesOfLanes a)[8 * i.val + j.val]? = some ((a[i]).extractLsb' (8 * j.val) 8) := by
  have hi : i.val < a.toList.length := by simp
  rw [bytesOfLanes, getElem?_flatMap_of_length_eq le64inv_length _ hi j.isLt, getElem?_le64inv _ j.isLt]
  rfl

/-! ### ALD and AST (R127, R128) -/

section
variable {d : Idx8} {s : State}

theorem exec_ald_of_length_ne (h : (s.readB d).length ≠ 200) : exec (.ald d) s = commit (.error .malformedInput) s :=
  congrArg (commit · s) (if_pos h)

theorem exec_ald_of_length_eq (h : (s.readB d).length = 200) :
    exec (.ald d) s = commit (.ok (s.writeA (lanesOfBytes (s.readB d)))) s :=
  congrArg (commit · s) (if_neg (not_not_intro h))

theorem exec_ast (d : Idx8) (s : State) : exec (.ast d) s = commit (.ok (s.writeB d (bytesOfLanes s.a))) s := rfl

end

/-- Settles O24: ALD by the length check, then both directions of the lane order. -/
theorem aldAndAstUseTheLaneOrder : Obligations.AldAndAstUseTheLaneOrder := by
  intro d s
  refine ⟨decode_encode (.ald d) rfl, decode_encode (.ast d) rfl, ?ald, ?ast⟩
  case ald =>
    split
    next hne => exact fails_of_exec_eq_commit_error rfl (exec_ald_of_length_ne hne)
    next hnot =>
      have hlen := not_not.1 hnot
      obtain ⟨t, hexec, hok, ha, hframe⟩ := completes_of_exec_eq_commit_writeA (exec_ald_of_length_eq hlen)
      refine ⟨t, hexec, hok, hframe, fun i j => ?_⟩
      rw [ha]
      exact lanesOfBytes_extract hlen i j
  case ast =>
    obtain ⟨t, hexec, hok, hwrote⟩ := completes_of_exec_eq_commit_writeB (exec_ast d s)
    exact ⟨t, _, hexec, hok, hwrote, bytesOfLanes_length s.a, getElem?_bytesOfLanes s.a⟩

end Sys2Proof.Machine
end

section
/-! SUPPORT. The padding and the sponge function (42_sponge.md R140, R141), byte by byte: the padded message is a whole
number of blocks, absorbing one more of them is one more XOR and permutation, and the output is the rate portions of the
permuted states one after another. -/

namespace Sys2Proof.Machine

/-! ### The padding (R140) -/

@[simp] theorem padding_length (m : Nat) (sfx : Byte) : (padding m sfx).length = 136 - m % 136 := by
  simp [padding, Config.rate]

theorem getElem?_padding {m : Nat} (sfx : Byte) {i : Nat} (hi : i < 136 - m % 136) : (padding m sfx)[i]? =
    some ((if i = 0 then sfx else 0) ^^^ (if i + 1 = 136 - m % 136 then 0x80 else 0)) := by
  have hlast : i = 136 - m % 136 - 1 ↔ i + 1 = 136 - m % 136 := by omega
  simp only [padding, Config.rate, List.getElem?_map, List.getElem?_range hi, Option.map_some, hlast]

theorem padded_length (m : Bytes) (sfx : Byte) :
    (m ++ padding m.length sfx).length = 136 * (m.length / 136 + 1) := by
  rw [List.length_append, padding_length]
  omega

/-! ### ABSORB (R141) -/

/-- A slice of a slice, inside it. -/
theorem slice_slice (x : Bytes) {p q lo hi : Nat} (h : p + hi ≤ q) :
    slice (slice x p q) lo hi = slice x (p + lo) (p + hi) := by
  have hwidth : min (hi - lo) (q - p - lo) = p + hi - (p + lo) := by omega
  simp only [slice, List.drop_take, List.drop_drop, List.take_take, hwidth]

theorem slice_drop (x : Bytes) (k lo hi : Nat) : slice (x.drop k) lo hi = slice x (k + lo) (k + hi) := by
  rw [slice, slice, List.drop_drop, Nat.add_sub_add_left]

/-- Absorbing one block more: the recursion of `absorb` takes its blocks from the front, this one from the end. -/
theorem absorb_succ (n : Nat) (x : Bytes) (a : Lanes) :
    absorb (n + 1) x a = absorbBlock (absorb n x a) (slice x (136 * n) (136 * n + 136)) := by
  induction n generalizing x a with
  | zero => rfl
  | succ n ih =>
    have hnext : 136 + 136 * n = 136 * (n + 1) := by ring
    rw [absorb, ih, absorb, Config.rate, slice_drop, ← Nat.add_assoc, hnext]

theorem absorbBlock_slice (a : Lanes) (x : Bytes) (p : Nat) :
    absorbBlock a (slice x p (p + 136)) = keccakP (Vector.ofFn fun i =>
      if i.val < 17 then a[i] ^^^ le64 (slice x (p + 8 * i.val) (p + 8 * i.val + 8)) else a[i]) := by
  rw [absorbBlock, Config.rateLanes]
  congr 2
  funext i
  split
  next hrate => rw [slice_slice x (by omega), ← Nat.add_assoc]
  next => rfl

/-! ### SQUEEZE (R141) -/

@[simp] theorem rateBytes_length (a : Lanes) : (rateBytes a).length = 136 := by
  simp [rateBytes, Config.rateLanes, List.length_flatMap]

theorem lane_of_index (a : Lanes) {i : Nat} (hi : i < 25) : lane a (i % 5) (i / 5) = a[i] := by
  have hindex : i % 5 % 5 + 5 * (i / 5 % 5) = i := by omega
  simp only [lane, hindex]

theorem getElem?_rateBytes (a : Lanes) {n : Nat} (hn : n < 136) :
    (rateBytes a)[n]? = some ((lane a (n / 8 % 5) (n / 8 / 5)).extractLsb' (8 * (n % 8)) 8) := by
  have hlane : n / 8 < (a.toList.take 17).length := by
    rw [List.length_take, Vector.length_toList]
    omega
  have hbyte : n % 8 < 8 := Nat.mod_lt n (by decide)
  have hsplit := getElem?_flatMap_of_length_eq le64inv_length (a.toList.take 17) hlane hbyte
  rw [Nat.div_add_mod, getElem?_le64inv _ hbyte, List.getElem_take, Vector.getElem_toList] at hsplit
  rw [lane_of_index a (by omega), ← hsplit]
  rfl

/-- The squeezed blocks are the rate portions after 0, 1, …, `more` further permutations. -/
theorem squeeze_eq_flatMap (more : Nat) (a : Lanes) :
    squeeze more a = (List.range (more + 1)).flatMap fun t => rateBytes (keccakP^[t] a) := by
  induction more generalizing a with
  | zero => simp [squeeze]
  | succ more ih =>
    rw [squeeze, ih, List.range_succ_eq_map (n := more + 1), List.flatMap_cons, List.flatMap_map]
    rfl

theorem squeeze_length (more : Nat) (a : Lanes) : (squeeze more a).length = 136 * (more + 1) := by
  simp [squeeze_eq_flatMap, List.length_flatMap, mul_comm]

theorem getElem?_squeeze {more : Nat} (a : Lanes) {n : Nat} (hn : n < 136 * (more + 1)) :
    (squeeze more a)[n]? = (rateBytes (keccakP^[n / 136] a))[n % 136]? := by
  have hblock : n / 136 < (List.range (more + 1)).length := by
    rw [List.length_range]
    omega
  have hbyte : n % 136 < 136 := Nat.mod_lt n (by decide)
  have hsplit := getElem?_flatMap_of_length_eq (fun t => rateBytes_length (keccakP^[t] a)) _ hblock hbyte
  rwa [Nat.div_add_mod, List.getElem_range, ← squeeze_eq_flatMap] at hsplit

/-- Enough blocks are squeezed for the output. -/
theorem le_moreBlocks (outLen : Nat) : outLen ≤ 136 * (moreBlocks outLen + 1) := by
  rw [moreBlocks, Config.rate]
  omega

/-! ### The sponge function (R141) -/

/-- The state that the first n blocks of the padded message leave, from the zero state. -/
def spongeChain (m : Bytes) (sfx : Byte) (n : Nat) : Lanes := absorb n (m ++ padding m.length sfx) zeroLanes

section
variable (m : Bytes) (sfx : Byte)

theorem spongeChain_zero : spongeChain m sfx 0 = zeroLanes := rfl

theorem spongeChain_succ (n : Nat) : spongeChain m sfx (n + 1) = keccakP (Vector.ofFn fun i =>
    if i.val < 17 then (spongeChain m sfx n)[i] ^^^
      le64 (slice (m ++ padding m.length sfx) (136 * n + 8 * i.val) (136 * n + 8 * i.val + 8))
    else (spongeChain m sfx n)[i]) := by
  rw [spongeChain, absorb_succ, absorbBlock_slice, ← spongeChain]

theorem sponge_eq_take_squeeze (bits : Nat) : sponge m sfx bits =
    (squeeze (moreBlocks (bits / 8)) (spongeChain m sfx (m.length / 136 + 1))).take (bits / 8) := by
  have hblocks : (m ++ padding m.length sfx).length / Config.rate = m.length / 136 + 1 := by
    rw [padded_length, Config.rate, Nat.mul_div_cancel_left _ (by decide)]
  rw [spongeChain, ← hblocks]
  rfl

theorem sponge_length (bits : Nat) : (sponge m sfx bits).length = bits / 8 := by
  rw [sponge_eq_take_squeeze, List.length_take, squeeze_length, min_eq_left (le_moreBlocks _)]

theorem getElem?_sponge {bits n : Nat} (hn : n < bits / 8) : (sponge m sfx bits)[n]? =
    (rateBytes (keccakP^[n / 136] (spongeChain m sfx (m.length / 136 + 1))))[n % 136]? := by
  rw [sponge_eq_take_squeeze, List.getElem?_take_of_lt hn, getElem?_squeeze _ (hn.trans_le (le_moreBlocks _))]

end

/-- Settles O25: the chain is the state after each number of blocks; an output byte is found in its squeezed block, then
in its lane. -/
theorem spongeAbsorbsAndSqueezes : Obligations.SpongeAbsorbsAndSqueezes := by
  refine ⟨fun m sfx => ⟨padding_length m sfx, fun i hi => getElem?_padding sfx hi⟩, fun m sfx bits _ => ?_⟩
  refine ⟨m.length / 136 + 1, spongeChain m sfx, Nat.le_add_left .., padded_length m sfx, spongeChain_zero m sfx,
    fun n _ => spongeChain_succ m sfx n, sponge_length m sfx bits, fun n hn => ?_⟩
  rw [getElem?_sponge m sfx hn, getElem?_rateBytes _ (Nat.mod_lt n (by decide)),
    Nat.mod_mod_of_dvd n (by decide : 8 ∣ 136)]

end Sys2Proof.Machine
end

section
/-! SUPPORT. The commands SPONGE, SHAKE and CSHAKE (42_sponge.md R142 to R144): how a class-S command that writes one
buffer ends, and the two checks that every command with an output bit length makes. -/

namespace Sys2Proof.Machine

/-! ### A class-S command that writes one buffer -/

section
variable {i : Instr} {s : State}

theorem complete_writeB_wroteBS (d : Idx8) (x : Bytes) (s : State) :
    WroteBS d x s (complete ((s.writeB d x).writeA zeroLanes)) := by
  obtain ⟨-, hdest, hother⟩ := complete_writeB_wroteB d x s
  exact ⟨rfl, hdest, hother⟩

theorem completes_of_exec_eq_commitS_writeB {d : Idx8} {x : Bytes} (h : exec i s = commitS (.ok (s.writeB d x)) s) :
    ∃ t, exec i s = .next t ∧ CompletedOk s t ∧ WroteBS d x s t :=
  ⟨_, h, complete_completedOk rfl, complete_writeB_wroteBS d x s⟩

theorem fails_of_exec_eq_commitS_error {e : Err} (hclass : classS i = true) (h : exec i s = commitS (.error e) s) :
    Fails i s e :=
  ⟨_, h.trans (commitS_error e s), raise_writeA_failedWith e s, by simp [hclass]⟩

end

/-! ### The checks of the output bit length -/

/-- What SHAKE and CSHAKE write, y their output: the bit length's two checks, and then y (R143, R144). SPONGE makes the
same checks with the suffix check between them (R142). -/
def writeOutput (d : Idx8) (bits : Nat) (y : Bytes) (s : State) : Except Err State :=
  if bits % 8 ≠ 0 then .error .domainError
  else if s.params.bmax < bits / 8 then .error .capacity
  else .ok (s.writeB d y)

section
variable {d : Idx8} {bits : Nat} {y : Bytes} {s : State}

theorem writeOutput_of_not_bytes (h : bits % 8 ≠ 0) : writeOutput d bits y s = .error .domainError := if_pos h

theorem writeOutput_of_above (hbytes : ¬ bits % 8 ≠ 0) (h : s.params.bmax < bits / 8) :
    writeOutput d bits y s = .error .capacity :=
  (if_neg hbytes).trans (if_pos h)

theorem writeOutput_of_fits (hbytes : ¬ bits % 8 ≠ 0) (h : ¬ s.params.bmax < bits / 8) :
    writeOutput d bits y s = .ok (s.writeB d y) :=
  (if_neg hbytes).trans (if_neg h)

end

/-! ### What each command commits (R142 to R144) -/

section
variable (d a b c e : Idx8) {s : State}

theorem exec_sponge_of_not_bytes (h : (s.readN b).toNat % 8 ≠ 0) :
    exec (.sponge d a b c) s = commitS (.error .domainError) s :=
  congrArg (commitS · s) (if_pos h)

theorem exec_sponge_of_bad_suffix (hbytes : ¬ (s.readN b).toNat % 8 ≠ 0)
    (h : (s.readN c).toNat < 0x01 ∨ (s.readN c).toNat > 0x7F) :
    exec (.sponge d a b c) s = commitS (.error .domainError) s :=
  congrArg (commitS · s) ((if_neg hbytes).trans (if_pos h))

/-- With a suffix in its range SPONGE is the bit length's two checks and the output. -/
theorem exec_sponge_of_suffix (h : ¬ ((s.readN c).toNat < 0x01 ∨ (s.readN c).toNat > 0x7F)) :
    exec (.sponge d a b c) s = commitS (writeOutput d (s.readN b).toNat
      (sponge (s.readB a) ((s.readN c).setWidth 8) (s.readN b).toNat) s) s := by
  rw [← BitVec.ofNat_toNat 8 (s.readN c)]
  exact congrArg (commitS · s) (if_congr Iff.rfl rfl (if_neg h))

theorem exec_shake (s : State) : exec (.shake d a b) s = commitS (writeOutput d (s.readN b).toNat
    (sponge (s.readB a) 0x1F (s.readN b).toNat) s) s := rfl

theorem exec_cshake (s : State) : exec (.cshake d a b c e) s = commitS (writeOutput d (s.readN b).toNat
    (if (s.readB c).length = 0 ∧ (s.readB e).length = 0 then sponge (s.readB a) 0x1F (s.readN b).toNat
     else sponge (bytepad (encodeString (s.readB c) ++ encodeString (s.readB e)) 136 ++ s.readB a) 0x04
       (s.readN b).toNat) s) s := rfl

end

/-! ### The obligations -/

/-- Settles O27: the first two checks fail on their own; past them SPONGE is the output with its capacity check. -/
theorem spongeCommandRunsTheSponge : Obligations.SpongeCommandRunsTheSponge := by
  intro d a b c s
  refine ⟨decode_encode (.sponge d a b c) rfl, ?_⟩
  split
  next hbits => exact fails_of_exec_eq_commitS_error rfl (exec_sponge_of_not_bytes d a b c hbits)
  next hbytes =>
    split
    next hbad => exact fails_of_exec_eq_commitS_error rfl (exec_sponge_of_bad_suffix d a b c hbytes hbad)
    next hsuffix =>
      have hexec := exec_sponge_of_suffix d a b c hsuffix
      split
      next habove => exact fails_of_exec_eq_commitS_error rfl (by rw [hexec, writeOutput_of_above hbytes habove])
      next hfits => exact completes_of_exec_eq_commitS_writeB (by rw [hexec, writeOutput_of_fits hbytes hfits])

/-- Settles O28: both commands are the bit length's two checks and their output. -/
theorem shakeAndCshakeRunTheSponge : Obligations.ShakeAndCshakeRunTheSponge := by
  intro d a b c e s
  have hshake := exec_shake d a b s
  have hcshake := exec_cshake d a b c e s
  refine ⟨decode_encode (.shake d a b) rfl, decode_encode (.cshake d a b c e) rfl, ?_⟩
  split
  next hbits =>
    rw [writeOutput_of_not_bytes hbits] at hshake hcshake
    exact ⟨fails_of_exec_eq_commitS_error rfl hshake, fails_of_exec_eq_commitS_error rfl hcshake⟩
  next hbytes =>
    split
    next habove =>
      rw [writeOutput_of_above hbytes habove] at hshake hcshake
      exact ⟨fails_of_exec_eq_commitS_error rfl hshake, fails_of_exec_eq_commitS_error rfl hcshake⟩
    next hfits =>
      rw [writeOutput_of_fits hbytes hfits] at hshake hcshake
      exact ⟨completes_of_exec_eq_commitS_writeB hshake, completes_of_exec_eq_commitS_writeB hcshake⟩

end Sys2Proof.Machine
end

section
/-! SUPPORT. The command KMAC (43_kmac.md R160, R161): its function name is not empty, so kmacxof256 is always the
sponge with suffix 04, and the fixed parts of the absorbed string are the bytes R160 writes out. -/

namespace Sys2Proof.Machine

/-! ### The KMACXOF256 function (R160) -/

/-- With a function name cSHAKE256 is never SHAKE256 (R146). -/
theorem cshake256_of_name_ne_nil {name : Bytes} (h : name ≠ []) (m : Bytes) (bits : Nat) (custom : Bytes) :
    cshake256 m bits name custom = sponge (bytepad (encodeString name ++ encodeString custom) 136 ++ m) 0x04 bits :=
  if_neg fun ⟨hname, _⟩ => h (List.length_eq_zero_iff.1 hname)

theorem kmacName_ne_nil : kmacName ≠ [] := by decide

theorem encodeString_kmacName : encodeString kmacName = [0x01, 0x20, 0x4B, 0x4D, 0x41, 0x43] := by decide

theorem rightEncode_zero : rightEncode 0 = [0x00, 0x01] := by decide

theorem kmacxof256_eq_sponge (key data : Bytes) (bits : Nat) (custom : Bytes) : kmacxof256 key data bits custom =
    sponge (bytepad ([0x01, 0x20, 0x4B, 0x4D, 0x41, 0x43] ++ encodeString custom) 136 ++
      bytepad (encodeString key) 136 ++ data ++ [0x00, 0x01]) 0x04 bits := by
  rw [kmacxof256, cshake256_of_name_ne_nil kmacName_ne_nil, encodeString_kmacName, rightEncode_zero, Config.rate]
  simp only [List.append_assoc]

/-! ### The command (R161) -/

/-- What a class-S command with an output bit length does in each case of its two checks. -/
theorem outcome_of_exec_eq_writeOutput {i : Instr} {d : Idx8} {bits : Nat} {y : Bytes} {s : State}
    (hclass : classS i = true) (hexec : exec i s = commitS (writeOutput d bits y s) s) :
    if bits % 8 ≠ 0 then Fails i s .domainError
    else if bits / 8 > s.params.bmax then Fails i s .capacity
    else ∃ t, exec i s = .next t ∧ CompletedOk s t ∧ WroteBS d y s t := by
  split
  next hbits => exact fails_of_exec_eq_commitS_error hclass (by rw [hexec, writeOutput_of_not_bytes hbits])
  next hbytes =>
    split
    next habove => exact fails_of_exec_eq_commitS_error hclass (by rw [hexec, writeOutput_of_above hbytes habove])
    next hfits => exact completes_of_exec_eq_commitS_writeB (by rw [hexec, writeOutput_of_fits hbytes hfits])

theorem exec_kmac (d a b c e : Idx8) (s : State) : exec (.kmac d a b c e) s = commitS (writeOutput d (s.readN c).toNat
    (kmacxof256 (s.readB a) (s.readB b) (s.readN c).toNat (s.readB e)) s) s := rfl

/-- Settles O29: KMAC is the bit length's two checks and kmacxof256, which is the sponge over R160's string. -/
theorem kmacAbsorbsTheWrittenOutString : Obligations.KmacAbsorbsTheWrittenOutString := by
  intro d a b c e s
  refine ⟨decode_encode (.kmac d a b c e) rfl, ?_⟩
  rw [← kmacxof256_eq_sponge]
  exact outcome_of_exec_eq_writeOutput rfl (exec_kmac d a b c e s)

end Sys2Proof.Machine
end

section
/-! SUPPORT. The loads and stores of the field and scalar registers (44_field.md R173 to R176): how a command that
writes one of these registers ends, and that 56 and 64 bytes hold every value of an F and of a K register. -/

namespace Sys2Proof.Machine

/-! ### A command that writes one field or scalar register -/

section
variable {i : Instr} {s : State}

theorem complete_writeF_wroteF (d : Idx8) (v : Fe) (s : State) : WroteF d v.val s (complete (s.writeF d v)) :=
  ⟨rfl, by simp, fun j hj => by simp [hj]⟩

theorem complete_writeK_wroteK (d : Idx4) (v : BitVec 512) (s : State) :
    WroteK d v.toNat s (complete (s.writeK d v)) :=
  ⟨rfl, by simp, fun j hj => by simp [hj]⟩

theorem completes_of_exec_eq_commit_writeF {d : Idx8} {v : Fe} (h : exec i s = commit (.ok (s.writeF d v)) s) :
    ∃ t, exec i s = .next t ∧ CompletedOk s t ∧ WroteF d v.val s t :=
  ⟨_, h, complete_completedOk (State.writeF_status ..), complete_writeF_wroteF d v s⟩

theorem completes_of_exec_eq_commit_writeK {d : Idx4} {v : BitVec 512}
    (h : exec i s = commit (.ok (s.writeK d v)) s) :
    ∃ t, exec i s = .next t ∧ CompletedOk s t ∧ WroteK d v.toNat s t :=
  ⟨_, h, complete_completedOk (State.writeK_status ..), complete_writeK_wroteK d v s⟩

end

/-! ### The widths of the registers in bytes (00_scope.md R14) -/

theorem fieldPrime_lt_bytes : fieldPrime < 256 ^ Config.feBytes := by decide

theorem bytes_eq_two_pow_512 : 256 ^ Config.kBytes = 2 ^ 512 := by
  have hbyte : 256 = 2 ^ 8 := rfl
  rw [Config.kBytes, hbyte, ← pow_mul]

theorem os2ip_i2osp_fe (v : Fe) : os2ip (i2osp v.val Config.feBytes) = v.val := by
  rw [os2ip_i2osp, Nat.mod_eq_of_lt (v.isLt.trans fieldPrime_lt_bytes)]

theorem os2ip_i2osp_scalar (v : BitVec 512) : os2ip (i2osp v.toNat Config.kBytes) = v.toNat := by
  rw [os2ip_i2osp, bytes_eq_two_pow_512, Nat.mod_eq_of_lt v.isLt]

/-- A word with eight bits for each byte holds the integer of a byte string as it is. -/
theorem toNat_ofNat_os2ip {w : Nat} {x : Bytes} (h : 8 * x.length ≤ w) :
    (BitVec.ofNat w (os2ip x)).toNat = os2ip x := by
  have hlt : os2ip x < 2 ^ w :=
    calc os2ip x < 256 ^ x.length := os2ip_lt x
      _ = 2 ^ (8 * x.length) := (pow_mul 2 8 x.length).symm
      _ ≤ 2 ^ w := Nat.pow_le_pow_right (by decide) h
  rw [BitVec.toNat_ofNat, Nat.mod_eq_of_lt hlt]

/-! ### What each command commits (R173 to R176) -/

section
variable (d a : Idx8) (k : Idx4) {s : State}

theorem exec_fld_of_length_ne (h : (s.readB a).length ≠ 56) :
    exec (.fld d a) s = commit (.error .malformedInput) s :=
  congrArg (commit · s) (if_pos h)

theorem exec_fld_of_length_eq (h : (s.readB a).length = 56) :
    exec (.fld d a) s = commit (.ok (s.writeF d (Fe.ofNat (os2ip (s.readB a))))) s :=
  congrArg (commit · s) (if_neg (not_not_intro h))

theorem exec_fst (s : State) :
    exec (.fst d a) s = commit (.ok (s.writeB d (i2osp (s.readF a).val Config.feBytes))) s := rfl

theorem exec_kld_of_lt (h : 64 < (s.readB a).length) : exec (.kld k a) s = commit (.error .malformedInput) s :=
  congrArg (commit · s) (if_pos h)

theorem exec_kld_of_not_lt (h : ¬ 64 < (s.readB a).length) :
    exec (.kld k a) s = commit (.ok (s.writeK k (BitVec.ofNat 512 (os2ip (s.readB a))))) s :=
  congrArg (commit · s) (if_neg h)

theorem exec_kst (s : State) :
    exec (.kst d k) s = commit (.ok (s.writeB d (i2osp (s.readK k).toNat Config.kBytes))) s := rfl

end

/-! ### The obligations -/

/-- Settles O31: FLD by its length check; FST's 56 bytes hold every integer below p. -/
theorem fldReducesAndFstStores : Obligations.FldReducesAndFstStores := by
  intro d a s
  refine ⟨decode_encode (.fld d a) rfl, decode_encode (.fst d a) rfl, ?load, ?store⟩
  case load =>
    split
    next hne => exact fails_of_exec_eq_commit_error rfl (exec_fld_of_length_ne d a hne)
    next hnot => exact completes_of_exec_eq_commit_writeF (exec_fld_of_length_eq d a (not_not.1 hnot))
  case store =>
    obtain ⟨t, hexec, hok, hwrote⟩ := completes_of_exec_eq_commit_writeB (exec_fst d a s)
    exact ⟨t, _, hexec, hok, hwrote, i2osp_length .., os2ip_i2osp_fe _⟩

/-- Settles O32: at most 64 bytes are an integer below 2^512, which K holds as it is. -/
theorem kldKeepsTheIntegerAndKstStores : Obligations.KldKeepsTheIntegerAndKstStores := by
  intro d k s
  refine ⟨decode_encode (.kld k d) rfl, decode_encode (.kst d k) rfl, ?load, ?store⟩
  case load =>
    split
    next hlong => exact fails_of_exec_eq_commit_error rfl (exec_kld_of_lt d k hlong)
    next hfits =>
      have hcompletes := completes_of_exec_eq_commit_writeK (exec_kld_of_not_lt d k hfits)
      rwa [toNat_ofNat_os2ip (by omega)] at hcompletes
  case store =>
    obtain ⟨t, hexec, hok, hwrote⟩ := completes_of_exec_eq_commit_writeB (exec_kst d k s)
    exact ⟨t, _, hexec, hok, hwrote, i2osp_length .., os2ip_i2osp_scalar _⟩

end Sys2Proof.Machine
end

section
/-! SUPPORT. The commands FADD, FSUB, FMUL, FINV and FSQRT (44_field.md R177 to R181): which field element each one
writes, and the root that FSQRT checks, as an integer. -/

namespace Sys2Proof.Machine

/-! ### The checks of FINV and FSQRT, on integers -/

theorem eq_ofNat_zero_iff {v : Fe} : v = Fe.ofNat 0 ↔ v.val = 0 := by
  rw [Fin.ext_iff, feOfNat_zero_val]

theorem fmul_self_eq_iff {root v : Fe} : fmul root root = v ↔ root.val * root.val % fieldPrime = v.val := by
  rw [Fin.ext_iff, fmul_val]

/-! ### The root of FSQRT (R181) -/

/-- The root that `fsqrt` checks: the candidate power, or its negative where the low bit is not the requested one. -/
def candidateRoot (v : Fe) (lsb : Nat) : Fe :=
  if (fpow v sqrtExponent).val % 2 ≠ lsb then Fe.ofNat (fieldPrime - (fpow v sqrtExponent).val)
  else fpow v sqrtExponent

theorem candidateRoot_val (v : Fe) (lsb : Nat) : (candidateRoot v lsb).val =
    if v.val ^ ((fieldPrime + 1) / 4) % fieldPrime % 2 ≠ lsb then
      (fieldPrime - v.val ^ ((fieldPrime + 1) / 4) % fieldPrime) % fieldPrime
    else v.val ^ ((fieldPrime + 1) / 4) % fieldPrime := by
  have hpower : (fpow v sqrtExponent).val = v.val ^ ((fieldPrime + 1) / 4) % fieldPrime := fpow_val v sqrtExponent
  rw [← hpower, candidateRoot, apply_ite Fin.val, ofNat_val]

theorem fsqrt_eq (v : Fe) (lsb : Nat) : fsqrt v lsb =
    if fmul (candidateRoot v lsb) (candidateRoot v lsb) ≠ v then .error .noSquareRoot
    else .ok (candidateRoot v lsb) := rfl

/-- The requested bit is the whole immediate wherever that is in its range (30_encoding.md R86). -/
theorem lsbOf_eq_toNat {imm : BitVec 4} (h : imm.toNat ≤ 1) : lsbOf imm = imm.toNat := by
  rw [lsbOf, BitVec.extractLsb'_toNat, Nat.shiftRight_zero]
  omega

/-! ### What each command commits (R177 to R181) -/

section
variable (d a b : Idx8) (imm : BitVec 4) {s : State}

theorem exec_fadd (s : State) :
    exec (.fadd d a b) s = commit (.ok (s.writeF d (fadd (s.readF a) (s.readF b)))) s := rfl

theorem exec_fsub (s : State) :
    exec (.fsub d a b) s = commit (.ok (s.writeF d (fsub (s.readF a) (s.readF b)))) s := rfl

theorem exec_fmul (s : State) :
    exec (.fmul d a b) s = commit (.ok (s.writeF d (fmul (s.readF a) (s.readF b)))) s := rfl

theorem exec_finv_of_zero (h : (s.readF a).val = 0) : exec (.finv d a) s = commit (.error .domainError) s :=
  congrArg (commit · s) (if_pos (eq_ofNat_zero_iff.2 h))

theorem exec_finv_of_ne_zero (h : (s.readF a).val ≠ 0) :
    exec (.finv d a) s = commit (.ok (s.writeF d (finv (s.readF a)))) s :=
  congrArg (commit · s) (if_neg (mt eq_ofNat_zero_iff.1 h))

section
variable {imm} (himm : imm.toNat ≤ 1) {root : Fe} (hroot : candidateRoot (s.readF a) imm.toNat = root)
include himm hroot

theorem exec_fsqrt : exec (.fsqrt d a imm) s = commit
    (if fmul root root ≠ s.readF a then .error .noSquareRoot else .ok (s.writeF d root)) s := by
  have hfsqrt : exec (.fsqrt d a imm) s = commit ((fsqrt (s.readF a) (lsbOf imm)).map (s.writeF d)) s := rfl
  rw [hfsqrt, lsbOf_eq_toNat himm, fsqrt_eq, hroot, apply_ite (Except.map (s.writeF d))]
  rfl

theorem exec_fsqrt_of_square_ne (h : root.val * root.val % fieldPrime ≠ (s.readF a).val) :
    exec (.fsqrt d a imm) s = commit (.error .noSquareRoot) s := by
  rw [exec_fsqrt d a himm hroot, if_pos (mt fmul_self_eq_iff.1 h)]

theorem exec_fsqrt_of_square_eq (h : root.val * root.val % fieldPrime = (s.readF a).val) :
    exec (.fsqrt d a imm) s = commit (.ok (s.writeF d root)) s := by
  rw [exec_fsqrt d a himm hroot, if_neg (not_not_intro (fmul_self_eq_iff.2 h))]

end

end

/-! ### The obligations -/

/-- Settles O33: each command writes its field function of the operands, whose value is known modulo p. -/
theorem faddFsubFmulAreModular : Obligations.FaddFsubFmulAreModular := by
  intro d a b s
  refine ⟨decode_encode (.fadd d a b) rfl, decode_encode (.fsub d a b) rfl, decode_encode (.fmul d a b) rfl,
    ?sum, ?difference, ?product⟩
  case sum =>
    rw [← fadd_val]
    exact completes_of_exec_eq_commit_writeF (exec_fadd d a b s)
  case difference =>
    obtain ⟨t, hexec, hok, hwrote⟩ := completes_of_exec_eq_commit_writeF (exec_fsub d a b s)
    exact ⟨t, _, hexec, hok, hwrote, fsub_val _ _⟩
  case product =>
    rw [← fmul_val]
    exact completes_of_exec_eq_commit_writeF (exec_fmul d a b s)

/-- Settles O34: 0 is refused; any other element gives `finv`, the power p - 2. -/
theorem finvComputesThePower : Obligations.FinvComputesThePower := by
  intro d a s
  refine ⟨decode_encode (.finv d a) rfl, ?_⟩
  split
  next hzero => exact fails_of_exec_eq_commit_error rfl (exec_finv_of_zero d a hzero)
  next hne =>
    rw [← finv_val]
    exact completes_of_exec_eq_commit_writeF (exec_finv_of_ne_zero d a hne)

/-- Settles O35: the root is `candidateRoot`, and the check of its square decides the outcome. -/
theorem fsqrtFollowsThePseudocode : Obligations.FsqrtFollowsThePseudocode := by
  intro d a imm s himm
  have hvalue := candidateRoot_val (s.readF a) imm.toNat
  generalize hroot : candidateRoot (s.readF a) imm.toNat = root at hvalue
  refine ⟨decode_encode (.fsqrt d a imm) (decide_eq_true himm), _, root.val, rfl, hvalue, ?_⟩
  split
  next hne => exact fails_of_exec_eq_commit_error rfl (exec_fsqrt_of_square_ne d a himm hroot hne)
  next hnot => exact completes_of_exec_eq_commit_writeF (exec_fsqrt_of_square_eq d a himm hroot (not_not.1 hnot))

end Sys2Proof.Machine
end

section
/-! SUPPORT. The point commands PTNEW, PTFROMX, PTADD, PTENC, PTDEC and PTG (45_point.md R202 to R205, R209 to R211):
how a command that writes one point register ends, the curve equation on integers, and what each command commits. -/

namespace Sys2Proof.Machine

/-! ### A command that writes one point register -/

section
variable {i : Instr} {s : State} {d : Idx4} {q : Point} {result : Except Err Point} {e : Err}

theorem complete_writeP_wroteP (d : Idx4) (q : Point) (s : State) : WroteP d q s (complete (s.writeP d q)) :=
  ⟨rfl, by simp, fun j hj => by simp [hj]⟩

theorem completes_of_exec_eq_commit_writeP (h : exec i s = commit (.ok (s.writeP d q)) s) :
    ∃ t, exec i s = .next t ∧ CompletedOk s t ∧ WroteP d q s t :=
  ⟨_, h, complete_completedOk (State.writeP_status ..), complete_writeP_wroteP d q s⟩

/-- A command whose point computation has a result writes it. -/
theorem completes_of_exec_eq_commit_map_writeP (h : exec i s = commit (result.map (s.writeP d)) s)
    (hresult : result = .ok q) : ∃ t, exec i s = .next t ∧ CompletedOk s t ∧ WroteP d q s t :=
  completes_of_exec_eq_commit_writeP (by rw [h, hresult, Except.map])

/-- A command whose point computation is refused fails with that error. -/
theorem fails_of_exec_eq_commit_map_writeP (hclass : classS i = false)
    (h : exec i s = commit (result.map (s.writeP d)) s) (hresult : result = .error e) : Fails i s e :=
  fails_of_exec_eq_commit_error hclass (by rw [h, hresult, Except.map])

end

/-! ### The validating constructor (R201, R202) -/

section
variable {x y : Fe}

theorem curveD_val : Config.curveD.val = (fieldPrime - 39081) % fieldPrime := rfl

/-- The equation of R201 on integers: the reductions between the operations do not matter. -/
theorem onCurve_iff : onCurve ⟨x, y⟩ = true ↔ (x.val * x.val + y.val * y.val) % fieldPrime =
    (1 + (fieldPrime - 39081) * (x.val * x.val * (y.val * y.val))) % fieldPrime := by
  rw [onCurve, beq_iff_eq, Fin.ext_iff]
  simp only [fadd_val, fmul_val, ofNat_val, curveD_val, Nat.mod_add_mod, Nat.add_mod_mod, Nat.mod_mul_mod,
    Nat.mul_mod_mod]

theorem pointNew_of_onCurve (h : onCurve ⟨x, y⟩ = true) : pointNew x y = .ok ⟨x, y⟩ := if_pos h

theorem pointNew_of_not_onCurve (h : ¬ onCurve ⟨x, y⟩ = true) : pointNew x y = .error .invalidPoint := if_neg h

end

/-! ### The point of a given x (R203) -/

/-- The radicand (1 - x²)/(1 - d·x²). -/
def radicand (x : Fe) : Fe :=
  fmul (fsub (Fe.ofNat 1) (fmul x x)) (finv (fsub (Fe.ofNat 1) (fmul Config.curveD (fmul x x))))

section
variable {x root : Fe} {lsb : Nat} (hroot : candidateRoot (radicand x) lsb = root)
include hroot

theorem pointFromX_eq : pointFromX x lsb =
    if fmul root root ≠ radicand x then .error .noSquareRoot else .ok ⟨x, root⟩ := by
  have hfsqrt : pointFromX x lsb = (fsqrt (radicand x) lsb).map (Point.mk x) := rfl
  rw [hfsqrt, fsqrt_eq, hroot, apply_ite (Except.map (Point.mk x))]
  rfl

theorem pointFromX_of_square_ne (h : fmul root root ≠ radicand x) : pointFromX x lsb = .error .noSquareRoot := by
  rw [pointFromX_eq hroot, if_pos h]

theorem pointFromX_of_square_eq (h : fmul root root = radicand x) : pointFromX x lsb = .ok ⟨x, root⟩ := by
  rw [pointFromX_eq hroot, if_neg (not_not_intro h)]

end

/-! ### The point encoding (R208) -/

/-- The slices of R208 cut a string of 112 bytes into its two halves. -/
theorem ptDec_eq_pointNew {x : Bytes} (h : x.length = 112) :
    ptDec x = pointNew (Fe.ofNat (os2ip (x.take 56))) (Fe.ofNat (os2ip (x.drop 56))) := by
  have hsecond : slice x 56 112 = x.drop 56 := List.take_of_length_le (by rw [List.length_drop]; omega)
  rw [← hsecond]
  rfl

/-! ### What each command commits (R202 to R211) -/

section
variable (d a b : Idx4) (x y : Idx8) {s : State}

theorem exec_ptnew (s : State) :
    exec (.ptnew d x y) s = commit ((pointNew (s.readF x) (s.readF y)).map (s.writeP d)) s := rfl

theorem exec_ptfromx {imm : BitVec 4} (himm : imm.toNat ≤ 1) :
    exec (.ptfromx d x imm) s = commit ((pointFromX (s.readF x) imm.toNat).map (s.writeP d)) s := by
  rw [← lsbOf_eq_toNat himm]
  rfl

theorem exec_ptadd (s : State) :
    exec (.ptadd d a b) s = commit (.ok (s.writeP d (ptAdd (s.readP a) (s.readP b)))) s := rfl

theorem exec_ptenc (s : State) : exec (.ptenc x a) s =
    commit (.ok (s.writeB x (i2osp (s.readP a).x.val Config.feBytes ++ i2osp (s.readP a).y.val Config.feBytes))) s :=
  rfl

theorem exec_ptdec_of_length_ne (h : (s.readB x).length ≠ 112) :
    exec (.ptdec d x) s = commit (.error .malformedInput) s :=
  congrArg (commit · s) (if_pos h)

theorem exec_ptdec_of_length_eq (h : (s.readB x).length = 112) : exec (.ptdec d x) s = commit
    ((pointNew (Fe.ofNat (os2ip ((s.readB x).take 56))) (Fe.ofNat (os2ip ((s.readB x).drop 56)))).map (s.writeP d))
    s := by
  rw [← ptDec_eq_pointNew h]
  exact congrArg (commit · s) (if_neg (not_not_intro h))

theorem exec_ptg (s : State) : exec (.ptg d) s = commit (.ok (s.writeP d s.params.g)) s := rfl

end

/-! ### The obligations -/

/-- Settles O38: the validating constructor decides, and its curve check is the equation on integers. -/
theorem ptnewChecksTheCurveEquation : Obligations.PtnewChecksTheCurveEquation := by
  intro d a b s
  refine ⟨decode_encode (.ptnew d a b) rfl, ?_⟩
  split
  next hequation =>
    exact completes_of_exec_eq_commit_map_writeP (exec_ptnew d a b s) (pointNew_of_onCurve (onCurve_iff.2 hequation))
  next hnot =>
    exact fails_of_exec_eq_commit_map_writeP rfl (exec_ptnew d a b s)
      (pointNew_of_not_onCurve (mt onCurve_iff.1 hnot))

/-- Settles O39: the root is `candidateRoot` of the radicand, and the check of its square decides the outcome. -/
theorem ptfromxTakesTheRoot : Obligations.PtfromxTakesTheRoot := by
  intro d a imm s himm
  generalize hroot : candidateRoot (radicand (s.readF a)) imm.toNat = root
  refine ⟨decode_encode (.ptfromx d a imm) (decide_eq_true himm), _, _, _, radicand (s.readF a), _, root,
    rfl, rfl, rfl, rfl, rfl, hroot.symm, ?_⟩
  split
  next hne =>
    exact fails_of_exec_eq_commit_map_writeP rfl (exec_ptfromx d a himm) (pointFromX_of_square_ne hroot hne)
  next hnot =>
    exact completes_of_exec_eq_commit_map_writeP (exec_ptfromx d a himm)
      (pointFromX_of_square_eq hroot (not_not.1 hnot))

/-- Settles O40: PTADD writes `ptAdd` of its operands, which is R204's formula. -/
theorem ptaddComputesTheFormula : Obligations.PtaddComputesTheFormula := by
  intro d a b s
  obtain ⟨t, hexec, hok, hwrote⟩ := completes_of_exec_eq_commit_writeP (exec_ptadd d a b s)
  exact ⟨decode_encode (.ptadd d a b) rfl, t, _, _, _, _, _, rfl, rfl, rfl, rfl, rfl, hexec, hok, hwrote⟩

/-- Settles O43: PTENC's halves hold every integer below p; PTDEC by its length check, then the curve check. -/
theorem ptencAndPtdecUseFixedHalves : Obligations.PtencAndPtdecUseFixedHalves := by
  intro d a s
  refine ⟨decode_encode (.ptenc a d) rfl, decode_encode (.ptdec d a) rfl, ?encode, ?decode⟩
  case encode =>
    obtain ⟨t, hexec, hok, hwrote⟩ := completes_of_exec_eq_commit_writeB (exec_ptenc d a s)
    exact ⟨t, _, _, hexec, hok, hwrote, i2osp_length .., i2osp_length .., os2ip_i2osp_fe _, os2ip_i2osp_fe _⟩
  case decode =>
    split
    next hne => exact fails_of_exec_eq_commit_error rfl (exec_ptdec_of_length_ne d a hne)
    next hnot =>
      have hexec := exec_ptdec_of_length_eq d a (not_not.1 hnot)
      refine ⟨⟨_, _⟩, ofNat_val _, ofNat_val _, ?_⟩
      split
      next hoff =>
        exact fails_of_exec_eq_commit_map_writeP rfl hexec (pointNew_of_not_onCurve (Bool.eq_false_iff.1 hoff))
      next hon =>
        exact completes_of_exec_eq_commit_map_writeP hexec (pointNew_of_onCurve (Bool.eq_true_of_not_eq_false hon))

/-- Settles O44: PTG writes the parameter G. -/
theorem ptgLoadsTheBasePoint : Obligations.PtgLoadsTheBasePoint := by
  intro d s
  exact ⟨decode_encode (.ptg d) rfl, completes_of_exec_eq_commit_writeP (exec_ptg d s)⟩

end Sys2Proof.Machine
end

section
/-! SUPPORT. Scalar multiplication (45_point.md R206, R207): the loop of double-and-add, peeled at the low end of the
scalar, where the model's recursion peels it at the high end. -/

namespace Sys2Proof.Machine

theorem bitlength_eq_succ_bitlength_div_two {k : Nat} (hk : 0 < k) : bitlength k = bitlength (k / 2) + 1 := by
  have hle : ∀ n, bitlength k ≤ n + 1 ↔ bitlength (k / 2) ≤ n := fun n => by
    rw [bitlength_le_iff, bitlength_le_iff, pow_succ, Nat.div_lt_iff_lt_mul two_pos]
  have hpos : ¬ bitlength k ≤ 0 := by rw [bitlength_le_iff]; omega
  have hupper := (hle _).2 le_rfl
  have hlower := (hle (bitlength k - 1)).1 (by omega)
  omega

/-- What one bit of the scalar does to V (R206): double it, and add the point where the bit is set. -/
def doubleAndAdd (q : Point) (bit : Bool) (v : Point) : Point :=
  if bit then ptAdd (ptAdd v v) q else ptAdd v v

section
variable (q : Point) (k : Nat)

/-- The loop takes the highest remaining bit first. -/
theorem mulLoop_succ (i : Nat) (v : Point) :
    mulLoop q k (i + 1) v = mulLoop q k i (doubleAndAdd q (k.testBit i) v) := rfl

/-- The bits of k above the lowest are those of k / 2: the loop over k is the loop over k / 2, then the lowest bit. -/
theorem mulLoop_succ_eq_doubleAndAdd (i : Nat) (v : Point) :
    mulLoop q k (i + 1) v = doubleAndAdd q (k.testBit 0) (mulLoop q (k / 2) i v) := by
  induction i generalizing v with
  | zero => rfl
  | succ i ih => rw [mulLoop_succ, ih, Nat.testBit_succ, ← mulLoop_succ]

theorem scalarMultiply_of_pos {k : Nat} (hk : 0 < k) :
    scalarMultiply q k = doubleAndAdd q (k.testBit 0) (scalarMultiply q (k / 2)) := by
  rw [scalarMultiply, bitlength_eq_succ_bitlength_div_two hk, mulLoop_succ_eq_doubleAndAdd, scalarMultiply]

end

theorem exec_ptmul (d a b : Idx4) (s : State) :
    exec (.ptmul d a b) s = commit (.ok (s.writeP d (scalarMultiply (s.readP a) (s.readK b).toNat))) s := rfl

/-- Settles O42: PTMUL writes `scalarMultiply`, whose last turn is the double, and the addition where k is odd. -/
theorem ptmulDoublesAndAdds : Obligations.PtmulDoublesAndAdds := by
  refine ⟨fun d a b s => ?command, scalarMultiply_zero, fun q k hk => ?recursion⟩
  case command =>
    exact ⟨decode_encode (.ptmul d a b) rfl, completes_of_exec_eq_commit_writeP (exec_ptmul d a b s)⟩
  case recursion =>
    simp only [scalarMultiply_of_pos q hk, doubleAndAdd, Nat.testBit_zero, decide_eq_true_eq]

end Sys2Proof.Machine
end

section
/-! SUPPORT. The protocol commands (46_protocols.md R231 to R237): the two halves of a derivation, what sealing and
opening a text give, the parts of a cryptogram and of a signature, and how each class-S command of the family ends. -/

namespace Sys2Proof.Machine

/-! ### Slices at the ends of a string (00_scope.md R17) -/

theorem slice_zero (x : Bytes) (n : Nat) : slice x 0 n = x.take n := rfl

theorem slice_of_length_le {x : Bytes} {hi : Nat} (h : x.length ≤ hi) (lo : Nat) : slice x lo hi = x.drop lo :=
  List.take_of_length_le (by rw [List.length_drop]; omega)

/-! ### The keys (R230) -/

theorem kmacxof256_length (key data : Bytes) (bits : Nat) (custom : Bytes) :
    (kmacxof256 key data bits custom).length = bits / 8 := by
  rw [kmacxof256_eq_sponge, sponge_length]

theorem encryptionKey_eq_take (derived : Bytes) : encryptionKey derived = derived.take 64 := slice_zero ..

theorem authenticationKey_eq_drop {derived : Bytes} (h : derived.length = 128) :
    authenticationKey derived = derived.drop 64 :=
  slice_of_length_le h.le 64

theorem derivePk_length (w : Point) : (derivePk w).length = 128 := kmacxof256_length ..

theorem deriveSym_length (nonce pw : Bytes) : (deriveSym nonce pw).length = 128 := kmacxof256_length ..

/-! ### Sealing and opening a text (R232 to R235) -/

section
variable {derived : Bytes} (hderived : derived.length = 128)
include hderived

theorem sealText_eq (m : Bytes) : sealText derived m =
    xorBytes (kmacxof256 (derived.take 64) [] (8 * m.length) [0x50, 0x4B, 0x45]) m ++
      kmacxof256 (derived.drop 64) m 512 [0x50, 0x4B, 0x41] := by
  rw [sealText, encryptionKey_eq_take, authenticationKey_eq_drop hderived, applyKeystream, tagOf, customPKE, customPKA]

/-- The text is deciphered first; the tag of the result decides (R233, R235). -/
theorem openText_eq {c m : Bytes}
    (hm : xorBytes (kmacxof256 (derived.take 64) [] (8 * c.length) [0x50, 0x4B, 0x45]) c = m) (t : Bytes) :
    openText derived c t =
    if kmacxof256 (derived.drop 64) m 512 [0x50, 0x4B, 0x41] ≠ t then .error .authenticationFailure else .ok m := by
  subst hm
  rw [openText, encryptionKey_eq_take, authenticationKey_eq_drop hderived, applyKeystream, tagOf, customPKE, customPKA]

end

/-! ### A class-S command whose result can be refused -/

section
variable {i : Instr} {s : State} {d : Idx8} {x : Bytes} {result : Except Err Bytes} {e : Err}

theorem completes_of_exec_eq_commitS_map_writeB (h : exec i s = commitS (result.map (s.writeB d)) s)
    (hresult : result = .ok x) : ∃ t, exec i s = .next t ∧ CompletedOk s t ∧ WroteBS d x s t :=
  completes_of_exec_eq_commitS_writeB (by rw [h, hresult, Except.map])

theorem fails_of_exec_eq_commitS_map_writeB (hclass : classS i = true)
    (h : exec i s = commitS (result.map (s.writeB d)) s) (hresult : result = .error e) : Fails i s e :=
  fails_of_exec_eq_commitS_error hclass (by rw [h, hresult, Except.map])

/-- What a command that opens a text does in both cases of the tag. -/
theorem outcome_of_exec_eq_openText {derived c t m : Bytes} (hclass : classS i = true)
    (hexec : exec i s = commitS ((openText derived c t).map (s.writeB d)) s) (hderived : derived.length = 128)
    (hm : xorBytes (kmacxof256 (derived.take 64) [] (8 * c.length) [0x50, 0x4B, 0x45]) c = m) :
    if kmacxof256 (derived.drop 64) m 512 [0x50, 0x4B, 0x41] ≠ t then Fails i s .authenticationFailure
    else ∃ u, exec i s = .next u ∧ CompletedOk s u ∧ WroteBS d m s u := by
  have hopen := openText_eq hderived hm t
  split
  next hne => exact fails_of_exec_eq_commitS_map_writeB hclass hexec (hopen.trans (if_pos hne))
  next hnot => exact completes_of_exec_eq_commitS_map_writeB hexec (hopen.trans (if_neg hnot))

end

/-! ### Encryption (R232, R234) -/

/-- What ENCPK and ENCSYM write, y their cryptogram of `size` bytes: the checks of the 64-byte random input and of the
capacity, and then y. -/
def writeCryptogram (d : Idx8) (rnd : Bytes) (size : Nat) (y : Bytes) (s : State) : Except Err State :=
  if rnd.length ≠ 64 then .error .malformedInput
  else if s.params.bmax < size then .error .capacity
  else .ok (s.writeB d y)

/-- What a command with these two checks does in each case; past them P holds if it follows from the write. -/
theorem outcome_of_exec_eq_writeCryptogram {i : Instr} {d : Idx8} {rnd y : Bytes} {size : Nat} {s : State} {P : Prop}
    (hclass : classS i = true) (hexec : exec i s = commitS (writeCryptogram d rnd size y s) s)
    (hwrites : ∀ t, exec i s = .next t → CompletedOk s t → WroteBS d y s t → P) :
    if rnd.length ≠ 64 then Fails i s .malformedInput else if size > s.params.bmax then Fails i s .capacity else P := by
  rw [writeCryptogram] at hexec
  split
  next hne => exact fails_of_exec_eq_commitS_error hclass (by rw [hexec, if_pos hne])
  next hlen =>
    rw [if_neg hlen] at hexec
    split
    next habove => exact fails_of_exec_eq_commitS_error hclass (by rw [hexec, if_pos habove])
    next hfits =>
      obtain ⟨t, hnext, hok, hwrote⟩ := completes_of_exec_eq_commitS_writeB (by rw [hexec, if_neg hfits])
      exact hwrites t hnext hok hwrote

theorem encryptPk_eq (prm : Config.Params) (m : Bytes) (v : Point) (rnd : Bytes) : encryptPk prm m v rnd =
    ptEnc (scalarMultiply prm.g (timesCofactor prm.r (os2ip rnd))) ++
      sealText (derivePk (scalarMultiply v (timesCofactor prm.r (os2ip rnd)))) m := rfl

theorem ptEnc_eq (q : Point) : ptEnc q = i2osp q.x.val 56 ++ i2osp q.y.val 56 := rfl

theorem exec_encpk (d a : Idx8) (b : Idx4) (c : Idx8) (s : State) : exec (.encpk d a b c) s =
    commitS (writeCryptogram d (s.readB c) (176 + (s.readB a).length)
      (encryptPk s.params (s.readB a) (s.readP b) (s.readB c)) s) s := rfl

theorem exec_encsym (d a b c : Idx8) (s : State) : exec (.encsym d a b c) s =
    commitS (writeCryptogram d (s.readB c) (128 + (s.readB a).length)
      (encryptSym (s.readB a) (s.readB b) (s.readB c)) s) s := rfl

/-- Settles O47: the two checks, then the encoded Z and the text sealed under the keys of W. -/
theorem encpkFollowsThePseudocode : Obligations.EncpkFollowsThePseudocode := by
  intro d a b c s
  refine ⟨decode_encode (.encpk d a b c) rfl,
    outcome_of_exec_eq_writeCryptogram rfl (exec_encpk d a b c s) fun t hexec hok hwrote => ?_⟩
  rw [encryptPk_eq, ptEnc_eq, sealText_eq (derivePk_length _), ← List.append_assoc] at hwrote
  exact ⟨t, _, _, _, _, _, _, rfl, rfl, rfl, rfl, rfl, rfl, hexec, hok, hwrote⟩

/-- Settles O49: the same two checks, then the nonce and the text sealed under the keys of nonce and passphrase. -/
theorem encsymFollowsThePseudocode : Obligations.EncsymFollowsThePseudocode := by
  intro d a b c s
  refine ⟨decode_encode (.encsym d a b c) rfl,
    outcome_of_exec_eq_writeCryptogram rfl (exec_encsym d a b c s) fun t hexec hok hwrote => ?_⟩
  rw [encryptSym, sealText_eq (deriveSym_length _ _), ← List.append_assoc] at hwrote
  exact ⟨t, _, _, _, rfl, rfl, rfl, hexec, hok, hwrote⟩

/-! ### Decryption (R233, R235) -/

/-- The pair of coordinates in the first 112 bytes of a public-key cryptogram (R238), reduced modulo p. -/
def cryptogramPoint (cg : Bytes) : Point :=
  ⟨Fe.ofNat (os2ip (slice cg 0 56)), Fe.ofNat (os2ip (slice cg 56 112))⟩

theorem ptDec_eq_pointNew_cryptogramPoint (cg : Bytes) :
    ptDec (slice cg 0 112) = pointNew (cryptogramPoint cg).x (cryptogramPoint cg).y := by
  rw [ptDec, Config.feBytes, Config.ptBytes, slice_slice cg (by omega), slice_slice cg (by omega)]
  rfl

section
variable {prm : Config.Params} {cg pw : Bytes} {n : Nat}

theorem decryptPk_of_not_onCurve (h : onCurve (cryptogramPoint cg) = false) :
    decryptPk prm cg pw = .error .invalidPoint := by
  have hdec := (ptDec_eq_pointNew_cryptogramPoint cg).trans (pointNew_of_not_onCurve (Bool.eq_false_iff.1 h))
  simp only [decryptPk, Config.ptBytes, hdec]

theorem decryptPk_of_onCurve (h : onCurve (cryptogramPoint cg) = true) (hn : n = cg.length - 176) :
    decryptPk prm cg pw = openText (derivePk (scalarMultiply (cryptogramPoint cg) (privScalar prm.r pw)))
      (slice cg 112 (112 + n)) (slice cg (112 + n) (176 + n)) := by
  have hdec := (ptDec_eq_pointNew_cryptogramPoint cg).trans (pointNew_of_onCurve h)
  have hend : 112 + n + 64 = 176 + n := by omega
  simp only [decryptPk, Config.ptBytes, Config.tagBytes, hdec, ← hn, hend]

theorem decryptSym_eq (hn : n = cg.length - 128) : decryptSym cg pw = openText (deriveSym (slice cg 0 64) pw)
    (slice cg 64 (64 + n)) (slice cg (64 + n) (128 + n)) := by
  have hend : 64 + n + 64 = 128 + n := by omega
  simp only [decryptSym, Config.nonceBytes, Config.tagBytes, ← hn, hend]

/-- The ciphertext of a cryptogram with a first part and a tag around n bytes. -/
theorem ciphertext_length {first : Nat} (h : first + n ≤ cg.length) : (slice cg first (first + n)).length = n := by
  rw [slice_length]
  omega

end

section
variable (d a b : Idx8) {s : State}

theorem exec_decpk_of_lt (h : (s.readB a).length < 176) :
    exec (.decpk d a b) s = commitS (.error .malformedInput) s :=
  congrArg (commitS · s) (if_pos h)

theorem exec_decpk_of_not_lt (h : ¬ (s.readB a).length < 176) :
    exec (.decpk d a b) s = commitS ((decryptPk s.params (s.readB a) (s.readB b)).map (s.writeB d)) s :=
  congrArg (commitS · s) (if_neg h)

theorem exec_decsym_of_lt (h : (s.readB a).length < 128) :
    exec (.decsym d a b) s = commitS (.error .malformedInput) s :=
  congrArg (commitS · s) (if_pos h)

theorem exec_decsym_of_not_lt (h : ¬ (s.readB a).length < 128) :
    exec (.decsym d a b) s = commitS ((decryptSym (s.readB a) (s.readB b)).map (s.writeB d)) s :=
  congrArg (commitS · s) (if_neg h)

end

/-- Settles O48: the length, then the curve check on Z, then the tag of the text opened under the keys of W. -/
theorem decpkFollowsThePseudocode : Obligations.DecpkFollowsThePseudocode := by
  intro d a b s
  refine ⟨decode_encode (.decpk d a b) rfl, ?_⟩
  split
  next hshort => exact fails_of_exec_eq_commitS_error rfl (exec_decpk_of_lt d a b hshort)
  next hlong =>
    have hexec := exec_decpk_of_not_lt d a b hlong
    refine ⟨_, cryptogramPoint (s.readB a), rfl, ofNat_val _, ofNat_val _, ?_⟩
    split
    next hoff => exact fails_of_exec_eq_commitS_map_writeB rfl hexec (decryptPk_of_not_onCurve hoff)
    next hon =>
      rw [decryptPk_of_onCurve (Bool.eq_true_of_not_eq_false hon) rfl] at hexec
      refine ⟨_, _, _, _, rfl, rfl, rfl, rfl, outcome_of_exec_eq_openText rfl hexec (derivePk_length _) ?_⟩
      rw [ciphertext_length (by omega)]

/-- Settles O50: the length, then the tag of the text opened under the keys of nonce and passphrase. -/
theorem decsymFollowsThePseudocode : Obligations.DecsymFollowsThePseudocode := by
  intro d a b s
  refine ⟨decode_encode (.decsym d a b) rfl, ?_⟩
  split
  next hshort => exact fails_of_exec_eq_commitS_error rfl (exec_decsym_of_lt d a b hshort)
  next hlong =>
    have hexec := exec_decsym_of_not_lt d a b hlong
    rw [decryptSym_eq rfl] at hexec
    refine ⟨_, _, _, rfl, rfl, rfl, outcome_of_exec_eq_openText rfl hexec (deriveSym_length _ _) ?_⟩
    rw [ciphertext_length (by omega)]

/-! ### The scalar, the response and the verdict (R230, R236, R237) -/

theorem privScalar_lt {r : Nat} (hr : 0 < r) (pw : Bytes) : privScalar r pw < r := Nat.mod_lt _ hr

theorem toNat_ofNat_of_lt {w v : Nat} (h : v < 2 ^ w) : (BitVec.ofNat w v).toNat = v := by
  rw [BitVec.toNat_ofNat, Nat.mod_eq_of_lt h]

/-- A K register holds every scalar below a conforming r as it is. -/
theorem toNat_ofNat_privScalar {prm : Config.Params} (h : ParamsOk prm) (pw : Bytes) :
    (BitVec.ofNat 512 (privScalar prm.r pw)).toNat = privScalar prm.r pw := by
  obtain ⟨-, -, hfour, hr, -⟩ := h
  have hlt : privScalar prm.r pw < prm.r := privScalar_lt (Nat.zero_lt_of_lt hfour) pw
  have hwidth : privScalar prm.r pw < 2 ^ 512 := hlt.trans (hr.trans (pow_lt_pow_right₀ one_lt_two (by decide)))
  exact toNat_ofNat_of_lt hwidth

/-- The response as an integer residue, also where the difference is negative (44_field.md R182). -/
theorem response_eq {r : Nat} (hr : 0 < r) (k h x : Nat) :
    (response r k h x : Int) = ((k : Int) - (h : Int) * (x : Int)) % (r : Int) :=
  Int.toNat_of_nonneg (Int.emod_nonneg _ (by omega))

theorem verifySignature_iff {prm : Config.Params} {sig m : Bytes} {v : Point} (hlen : sig.length = 120) :
    verifySignature prm sig m v = true ↔
      challenge (ptAdd (scalarMultiply prm.g (os2ip (sig.drop 64))) (scalarMultiply v (os2ip (sig.take 64)))) m =
        os2ip (sig.take 64) := by
  rw [← slice_zero, ← slice_of_length_le hlen.le]
  exact beq_iff_eq

/-! ### A class-S command that writes an integer register, or a scalar and a point -/

section
variable {i : Instr} {s : State}

theorem complete_writeN_wroteNS (d : Idx8) (v : BitVec 64) (s : State) :
    WroteNS d v s (complete ((s.writeN d v).writeA zeroLanes)) :=
  ⟨rfl, by simp, fun j hj => by simp [hj]⟩

theorem completes_of_exec_eq_commitS_writeN {d : Idx8} {v : BitVec 64} (h : exec i s = commitS (.ok (s.writeN d v)) s) :
    ∃ t, exec i s = .next t ∧ CompletedOk s t ∧ WroteNS d v s t :=
  ⟨_, h, complete_completedOk rfl, complete_writeN_wroteNS d v s⟩

theorem completes_of_exec_eq_commitS_writeK_writeP {d e : Idx4} {v : BitVec 512} {q : Point}
    (h : exec i s = commitS (.ok ((s.writeK d v).writeP e q)) s) :
    ∃ t, exec i s = .next t ∧ CompletedOk s t ∧
      t = { s with a := zeroLanes, k := t.k, p := t.p, status := t.status } ∧
      t.readK d = v ∧ (∀ j, j ≠ d → t.readK j = s.readK j) ∧ t.readP e = q ∧ ∀ j, j ≠ e → t.readP j = s.readP j :=
  ⟨_, h.trans (commitS_ok ..), complete_completedOk rfl, rfl, by simp, fun j hj => by simp [hj], by simp,
    fun j hj => by simp [hj]⟩

end

/-! ### What KEYPAIR, SIGN and VERIFY commit (R231, R236, R237) -/

section
variable (d a b : Idx8) (c e : Idx4) {s : State}

theorem exec_keypair (s : State) : exec (.keypair c e a) s = commitS (.ok
    ((s.writeK c (BitVec.ofNat 512 (privScalar s.params.r (s.readB a)))).writeP e
      (scalarMultiply s.params.g (privScalar s.params.r (s.readB a))))) s := rfl

theorem exec_sign (s : State) : exec (.sign d a b) s =
    commitS (.ok (s.writeB d (signMessage s.params (s.readB a) (s.readB b)))) s := rfl

theorem exec_verify_of_length_ne (h : (s.readB a).length ≠ 120) :
    exec (.verify d a b c) s = commitS (.error .malformedInput) s :=
  congrArg (commitS · s) (if_pos h)

theorem exec_verify_of_length_eq (h : (s.readB a).length = 120) : exec (.verify d a b c) s = commitS (.ok (s.writeN d
    (if verifySignature s.params (s.readB a) (s.readB b) (s.readP c) then 1 else 0))) s :=
  congrArg (commitS · s) (if_neg (not_not_intro h))

end

/-- Settles O46: KEYPAIR alone writes two register files; K holds the scalar since r is below 2^448. -/
theorem keypairDerivesScalarAndPoint : Obligations.KeypairDerivesScalarAndPoint := by
  intro d e a s hparams
  obtain ⟨t, hexec, hok, hframe, hK, hotherK, hP, hotherP⟩ :=
    completes_of_exec_eq_commitS_writeK_writeP (exec_keypair a d e s)
  have hscalar := toNat_ofNat_privScalar hparams (s.readB a)
  rw [← hK] at hscalar
  exact ⟨decode_encode (.keypair d e a) rfl, t, _, rfl, hexec, hok, hframe, hscalar, hotherK, hP, hotherP⟩

/-- Settles O51: SIGN writes `signMessage`, whose response is the residue on integers. -/
theorem signFollowsThePseudocode : Obligations.SignFollowsThePseudocode := by
  intro d a b s hparams
  obtain ⟨-, -, hfour, -, -⟩ := hparams
  have hpos : 0 < s.params.r := Nat.zero_lt_of_lt hfour
  obtain ⟨t, hexec, hok, hwrote⟩ := completes_of_exec_eq_commitS_writeB (exec_sign d a b s)
  exact ⟨decode_encode (.sign d a b) rfl, t, _, _, _, _, _, rfl, rfl, rfl, rfl, response_eq hpos _ _ _, hexec, hok,
    hwrote⟩

/-- Settles O52: the length check, then the verdict, which is the comparison of the challenges. -/
theorem verifyWritesTheVerdict : Obligations.VerifyWritesTheVerdict := by
  intro d a b c s
  refine ⟨decode_encode (.verify d a b c) rfl, ?_⟩
  split
  next hne => exact fails_of_exec_eq_commitS_error rfl (exec_verify_of_length_ne d a b c hne)
  next hnot =>
    have hlen := not_not.1 hnot
    obtain ⟨t, hexec, hok, hwrote⟩ := completes_of_exec_eq_commitS_writeN (exec_verify_of_length_eq d a b c hlen)
    rw [if_congr (verifySignature_iff hlen) rfl rfl] at hwrote
    exact ⟨t, _, _, _, rfl, rfl, rfl, hexec, hok, hwrote⟩

end Sys2Proof.Machine
end

section
/-! SUPPORT. Precise errors (60_exceptions.md R262): outside class S too a command ends in the shared commit, so a code
other than OK means that nothing was written and the error was raised in the accepted state. -/

namespace Sys2Proof.Machine

/-- Every command outside class S ends in `commit`. -/
theorem exec_not_classS_eq_commit {i : Instr} (h : classS i = false) (s : State) :
    ∃ written, exec i s = commit written s := by
  cases i with
  | ald | ast | fld | fst | kld | kst | lenc | renc | encstr | bytepad | substr | kp | fadd | fsub | fmul | finv | fsqrt
  | ptnew | ptfromx | ptadd | ptmul | ptenc | ptdec | ptg => exact ⟨_, rfl⟩
  | _ => simp [classS] at h

/-- Completing gives the code OK, whatever was written. -/
theorem statusCode_complete (s : State) : statusCode (complete s).status = okCode := by
  obtain ⟨-, -, hcode, -, -⟩ := complete_completedOk (rfl : s.status = s.status)
  exact hcode

section
variable {s t : State} {written : Except Err State}

theorem commit_of_code_ne_ok (h : commit written s = .next t) (hcode : statusCode t.status ≠ okCode) :
    ∃ e, t = raise e s := by
  obtain ⟨u, -, hnext⟩ | ⟨e, -, hnext⟩ := commit_cases written s <;> rw [hnext] at h <;> cases h
  · exact absurd (statusCode_complete u) hcode
  · exact ⟨e, rfl⟩

theorem commitS_of_code_ne_ok (h : commitS written s = .next t) (hcode : statusCode t.status ≠ okCode) :
    ∃ e, t = raise e (s.writeA zeroLanes) := by
  obtain ⟨u, -, hnext⟩ | ⟨e, -, hnext⟩ := commitS_cases written s <;> rw [hnext] at h <;> cases h
  · exact absurd (statusCode_complete _) hcode
  · exact ⟨e, rfl⟩

/-- A failed command has raised its error in the state it started in, with A cleared for class S. -/
theorem exec_of_code_ne_ok {i : Instr} (h : exec i s = .next t) (hcode : statusCode t.status ≠ okCode) :
    ∃ e, t = raise e (s.writeA (if classS i then zeroLanes else s.a)) := by
  cases hclass : classS i with
  | true =>
    obtain ⟨written, hexec⟩ := exec_classS_eq_commitS hclass s
    exact commitS_of_code_ne_ok (hexec.symm.trans h) hcode
  | false =>
    obtain ⟨written, hexec⟩ := exec_not_classS_eq_commit hclass s
    exact commit_of_code_ne_ok (hexec.symm.trans h) hcode

end

/-- What an error leaves of the state that has accepted a word, A being given. -/
theorem raise_writeA_accept (e : Err) (a : Lanes) (w : Word) (s : State) : raise e ((accept w s).writeA a) =
    { s with cmd := w, a := a, status := mkStatus false true true (errCode e) } := by
  rw [raise, completedStatus_err]
  rfl

/-- Settles O11: a step that issues a word fails by its command's error, or by ILLEGAL where it decodes to none. -/
theorem failedCommandChangesNothingElse : Obligations.FailedCommandChangesNothingElse := by
  intro s w rest t hinputs hidle hstep hcode
  rw [step_write_cmd hinputs hidle] at hstep
  cases hw : decode w with
  | ok i =>
    rw [issue_of_decode_ok hw] at hstep
    obtain ⟨e, rfl⟩ := exec_of_code_ne_ok hstep hcode
    exact ⟨e, raise_writeA_accept e _ w _⟩
  | error why =>
    rw [issue_of_decode_error hw] at hstep
    cases hstep
    exact ⟨.illegal, raise_illegal_accept w _⟩

end Sys2Proof.Machine
end

section
/-! SUPPORT. The encoder undoes the decoder (30_encoding.md R81 to R87): each arm of the decoder reads its operands off
the fields of the word and finds the other fields 0, so assembling the operands puts every field back. -/

namespace Sys2Proof

/-- A check followed by the rest of the decoding gives what both give. -/
theorem bind_eq_ok_iff {α β : Type} (check : Except Illegal α) (rest : α → Except Illegal β) (y : β) :
    (check >>= rest) = .ok y ↔ ∃ x, check = .ok x ∧ rest x = .ok y := by
  cases check with
  | ok x => simp [bind, Except.bind]
  | error why => simp [bind, Except.bind]

/-- A word in terms of its opcode and its other fields. -/
theorem eq_assemble_of_opcOf {w : Word} {opc : Nat} (h : opcOf w = opc) :
    assemble opc (rdOf w) (raOf w) (rbOf w) (rcOf w) (reOf w) (immOf w) = w :=
  h ▸ assemble_fields w

/-- The unused fields are a word's own zeros, and each operand is a word's own field. -/
theorem wellFormed_and_encode_of_decode {w : Word} {i : Instr} (h : decode w = .ok i) :
    i.wellFormed = true ∧ encode i = w := by
  unfold decode at h
  split at h
  case h_36 => cases h
  all_goals
    rename_i hopc
    have hword := eq_assemble_of_opcOf hopc
    simp only [bind_eq_ok_iff, exists_and_right, exists_eq_ok_iff_isOk, unused_isOk_iff, index8_eq_ok, index4_eq_ok,
      immediate_eq_ok, List.forall_mem_cons, List.not_mem_nil, false_imp_iff, implies_true, and_true, pure, Except.pure,
      Except.ok.injEq] at h
    grind [encode, Instr.wellFormed, immOk]

/-- Settles O4: both directions, each arm by arm. -/
theorem decodeAndEncodeAgree : Obligations.DecodeAndEncodeAgree :=
  ⟨decode_encode, fun _ _ h => wellFormed_and_encode_of_decode h⟩

/-- Settles O5: eight of the words are the encodings of their commands, and no row has opcode 0x00 or 0xFF. -/
theorem writtenWordsDecode : Obligations.WrittenWordsDecode :=
  ⟨decode_encode (.kmac 3 0 1 0 2) rfl, decode_encode (.keypair 0 1 2) rfl, decode_encode (.fsqrt 1 0 1) rfl,
    decode_encode .kp rfl, decode_encode (.ald 7) rfl, decode_encode (.substr 5 3 7 1) rfl,
    decode_encode (.ptmul 3 2 1) rfl, decode_encode (.verify 6 5 4 3) rfl, by decide, by decide⟩

end Sys2Proof
end

section
/-! SUPPORT. The prime p = 2^448 - 2^224 - 1 (00_scope.md R10): Pocklington's criterion, and its witnesses for p, whose
predecessor is 2 (2^223 - 1) (2^224 + 1). The chosen prime factors are those of 2^223 - 1 and the factor 641 of
2^224 + 1: their product is above the square root of p. -/

namespace Sys2Proof

open Finset

/-- In the field of a prime divisor l of n, `a ^ m` has order q: it is not 1, and its q-th power is. -/
theorem dvd_pred_of_witness {n q m l : ℕ} (hq : q.Prime) (hl : l.Prime) (hln : l ∣ n) {a : ZMod n}
    (hone : a ^ (m * q) = 1) (hunit : IsUnit (a ^ m - 1)) : q ∣ l - 1 := by
  have : Fact l.Prime := ⟨hl⟩
  have : Fact q.Prime := ⟨hq⟩
  have hpow : (ZMod.castHom hln (ZMod l) a ^ m) ^ q = 1 := by rw [← pow_mul, ← map_pow, hone, map_one]
  have hne : ZMod.castHom hln (ZMod l) a ^ m ≠ 1 := by
    have hreduced := (hunit.map (ZMod.castHom hln (ZMod l))).ne_zero
    rwa [map_sub, map_pow, map_one, sub_ne_zero] at hreduced
  have hnonzero : ZMod.castHom hln (ZMod l) a ^ m ≠ 0 := fun hzero => by
    rw [hzero, zero_pow hq.ne_zero] at hpow
    exact zero_ne_one hpow
  rw [← orderOf_eq_prime hpow hne]
  exact ZMod.orderOf_dvd_card_sub_one hnonzero

/-- Pocklington's criterion: prime factors of n - 1, each with a witness, whose product is at least the square root
of n. The least prime factor of n is then 1 modulo the product, so above it. -/
theorem prime_of_witnesses {n : ℕ} (hn : 1 < n) (qs : Finset ℕ) (hprime : ∀ q ∈ qs, q.Prime)
    (hbig : n ≤ (∏ q ∈ qs, q) ^ 2)
    (hwitness : ∀ q ∈ qs, (n - 1) / q * q = n - 1 ∧ ∃ a : ZMod n, a ^ (n - 1) = 1 ∧ IsUnit (a ^ ((n - 1) / q) - 1)) :
    n.Prime := by
  have hl : n.minFac.Prime := Nat.minFac_prime hn.ne'
  have hdvd : ∏ q ∈ qs, q ∣ n.minFac - 1 :=
    prod_primes_dvd _ (fun q hq => (hprime q hq).prime) fun q hq => by
      obtain ⟨hfactor, a, hone, hunit⟩ := hwitness q hq
      rw [← hfactor] at hone
      exact dvd_pred_of_witness (hprime q hq) hl n.minFac_dvd hone hunit
  have hlt : ∏ q ∈ qs, q < n.minFac := by
    have hle := Nat.le_of_dvd (Nat.sub_pos_of_lt hl.one_lt) hdvd
    have hpos := hl.pos
    omega
  by_contra hcomposite
  have hsq : n.minFac ^ 2 ≤ n := Nat.minFac_sq_le_self (by omega) hcomposite
  have hsq_lt := Nat.pow_lt_pow_left hlt two_ne_zero
  omega

theorem isUnit_ofNat {n r : ℕ} [r.AtLeastTwo] (h : Nat.Coprime (OfNat.ofNat r) n) :
    IsUnit (OfNat.ofNat r : ZMod n) := by
  have hcast : (OfNat.ofNat r : ZMod n) = ((OfNat.ofNat r : ℕ) : ZMod n) := Nat.cast_ofNat.symm
  rwa [hcast, ZMod.isUnit_iff_coprime]

/-! ### The two large prime factors of 2^223 - 1, with the primes under them -/

theorem prime_1764234391 : Nat.Prime 1764234391 := by
  refine prime_of_witnesses (by norm_num) {217003} (by norm_num) (by norm_num) ?_
  simp only [mem_singleton, forall_eq, Nat.reduceSub, Nat.reduceDiv, Nat.reduceMul, true_and]
  refine ⟨2, by reduce_mod_char, ?_⟩
  reduce_mod_char
  exact isUnit_ofNat (by norm_num)

theorem prime_34741861125639557 : Nat.Prime 34741861125639557 := by
  refine prime_of_witnesses (by norm_num) {1764234391} (by simpa using prime_1764234391) (by norm_num) ?_
  simp only [mem_singleton, forall_eq, Nat.reduceSub, Nat.reduceDiv, Nat.reduceMul, true_and]
  refine ⟨2, by reduce_mod_char, ?_⟩
  reduce_mod_char
  exact isUnit_ofNat (by norm_num)

theorem prime_36131535570665139281 : Nat.Prime 36131535570665139281 := by
  refine prime_of_witnesses (by norm_num) {34741861125639557} (by simpa using prime_34741861125639557) (by norm_num) ?_
  simp only [mem_singleton, forall_eq, Nat.reduceSub, Nat.reduceDiv, Nat.reduceMul, true_and]
  refine ⟨2, by reduce_mod_char, ?_⟩
  reduce_mod_char
  exact isUnit_ofNat (by norm_num)

theorem prime_596242599987116128415063 : Nat.Prime 596242599987116128415063 := by
  refine prime_of_witnesses (by norm_num) {36131535570665139281}
    (by simpa using prime_36131535570665139281) (by norm_num) ?_
  simp only [mem_singleton, forall_eq, Nat.reduceSub, Nat.reduceDiv, Nat.reduceMul, true_and]
  refine ⟨3, by reduce_mod_char, ?_⟩
  reduce_mod_char
  exact isUnit_ofNat (by norm_num)

theorem prime_3402277943 : Nat.Prime 3402277943 := by
  refine prime_of_witnesses (by norm_num) {1609403} (by norm_num) (by norm_num) ?_
  simp only [mem_singleton, forall_eq, Nat.reduceSub, Nat.reduceDiv, Nat.reduceMul, true_and]
  refine ⟨2, by reduce_mod_char, ?_⟩
  reduce_mod_char
  exact isUnit_ofNat (by norm_num)

theorem prime_1469495262398780123809 : Nat.Prime 1469495262398780123809 := by
  refine prime_of_witnesses (by norm_num) {411743, 3402277943} ?_ (by norm_num) ?_
  · simp only [forall_mem_insert, mem_singleton, forall_eq]
    exact ⟨by norm_num, prime_3402277943⟩
  · simp only [forall_mem_insert, mem_singleton, forall_eq, Nat.reduceSub, Nat.reduceDiv, Nat.reduceMul, true_and]
    refine ⟨?_, ?_⟩
    all_goals
      refine ⟨3, by reduce_mod_char, ?_⟩
      reduce_mod_char
      exact isUnit_ofNat (by norm_num)

/-! ### The field prime -/

theorem fieldPrime_prime : fieldPrime.Prime := by
  rw [fieldPrime]
  refine prime_of_witnesses (by norm_num)
    {641, 18287, 196687, 1466449, 2916841, 1469495262398780123809, 596242599987116128415063} ?_ (by norm_num) ?_
  · simp only [forall_mem_insert, mem_singleton, forall_eq]
    exact ⟨by norm_num, by norm_num, by norm_num, by norm_num, by norm_num, prime_1469495262398780123809,
      prime_596242599987116128415063⟩
  · simp only [forall_mem_insert, mem_singleton, forall_eq, Nat.reduceSub, Nat.reduceDiv, Nat.reduceMul, true_and]
    refine ⟨?_, ?_, ?_, ?_, ?_, ?_, ?_⟩
    all_goals
      refine ⟨2, by reduce_mod_char, ?_⟩
      reduce_mod_char
      exact isUnit_ofNat (by norm_num)

end Sys2Proof
end

section
/-! SUPPORT. The field functions in the field of p elements (44_field.md R172): inverses and square roots, which rest on
p being prime and 3 modulo 4. -/

namespace Sys2Proof.Machine

/-! ### The field functions as ring operations -/

/-- A field element as an element of the field of p elements. -/
def toField (a : Fe) : ZMod fieldPrime := (a.val : ZMod fieldPrime)

theorem toField_eq (a : Fe) : toField a = (a.val : ZMod fieldPrime) := rfl

/-- Two integers below p are equal when they are equal modulo p. -/
theorem natCast_eq_iff {u v : Nat} (hu : u < fieldPrime) (hv : v < fieldPrime) :
    (u : ZMod fieldPrime) = (v : ZMod fieldPrime) ↔ u = v := by
  rw [ZMod.natCast_eq_natCast_iff', Nat.mod_eq_of_lt hu, Nat.mod_eq_of_lt hv]

@[simp] theorem toField_inj {a b : Fe} : toField a = toField b ↔ a = b := by
  rw [toField, toField, natCast_eq_iff a.isLt b.isLt, Fin.ext_iff]

@[simp] theorem toField_ofNat (v : Nat) : toField (Fe.ofNat v) = (v : ZMod fieldPrime) := by
  rw [toField, ofNat_val, ZMod.natCast_mod]

@[simp] theorem toField_fadd (a b : Fe) : toField (fadd a b) = toField a + toField b := by
  rw [fadd, toField_ofNat, Nat.cast_add, toField, toField]

@[simp] theorem toField_fmul (a b : Fe) : toField (fmul a b) = toField a * toField b := by
  rw [fmul, toField_ofNat, Nat.cast_mul, toField, toField]

@[simp] theorem toField_fsub (a b : Fe) : toField (fsub a b) = toField a - toField b := by
  rw [fsub, toField_ofNat, Nat.cast_add, Nat.cast_sub b.isLt.le, ZMod.natCast_self, zero_sub, sub_eq_add_neg, toField,
    toField]

@[simp] theorem toField_fpow (a : Fe) (e : Nat) : toField (fpow a e) = toField a ^ e := by
  rw [toField, fpow_val, ZMod.natCast_mod, Nat.cast_pow, toField]

theorem toField_eq_zero_iff {a : Fe} : toField a = 0 ↔ a.val = 0 := by
  rw [← Nat.cast_zero, toField, natCast_eq_iff a.isLt fieldPrime_pos]

/-- A product of integers modulo p is the product in the field. -/
theorem mul_mod_eq_val_iff {u v : Nat} {a : Fe} :
    u * v % fieldPrime = a.val ↔ (u * v : ZMod fieldPrime) = toField a := by
  rw [← natCast_eq_iff (Nat.mod_lt _ fieldPrime_pos) a.isLt, ZMod.natCast_mod, Nat.cast_mul, toField]

/-- The squares modulo p are the squares of the field. -/
theorem exists_square_iff {a : Fe} : (∃ u, u * u % fieldPrime = a.val) ↔ IsSquare (toField a) := by
  simp only [mul_mod_eq_val_iff]
  constructor
  · rintro ⟨u, hu⟩
    exact ⟨u, hu.symm⟩
  · rintro ⟨r, hr⟩
    have : NeZero fieldPrime := ⟨fieldPrime_pos.ne'⟩
    exact ⟨r.val, by rw [ZMod.natCast_zmod_val, hr]⟩

/-! ### The inverse (R172) -/

theorem toField_mul_toField_finv {a : Fe} (ha : a.val ≠ 0) : toField a * toField (finv a) = 1 := by
  have : Fact fieldPrime.Prime := ⟨fieldPrime_prime⟩
  have hexponent : fieldPrime - 2 + 1 = fieldPrime - 1 := by decide
  rw [finv, toField_fpow, mul_comm, ← pow_succ, hexponent, ZMod.pow_card_sub_one_eq_one (mt toField_eq_zero_iff.1 ha)]

theorem mul_mod_eq_one_iff {u v : Nat} : u * v % fieldPrime = 1 ↔ (u * v : ZMod fieldPrime) = 1 := by
  have hone : (Fe.ofNat 1).val = 1 := by decide
  rw [← hone, mul_mod_eq_val_iff, toField_ofNat, Nat.cast_one]

/-- Settles O36: Fermat's little theorem gives the inverse, and a non-zero factor can be cancelled. -/
theorem finvIsTheInverse : Obligations.FinvIsTheInverse := by
  intro d a s ha
  have : Fact fieldPrime.Prime := ⟨fieldPrime_prime⟩
  have hinv := toField_mul_toField_finv ha
  have hmod := mul_mod_eq_one_iff.2 hinv
  obtain ⟨t, hexec, hok, hwrote⟩ := completes_of_exec_eq_commit_writeF (exec_finv_of_ne_zero d a ha)
  refine ⟨t, _, hexec, hok, hwrote, ?positive, (finv (s.readF a)).isLt, hmod, fun u hu huinv => ?unique⟩
  case positive =>
    refine Nat.pos_of_ne_zero fun hzero => ?_
    rw [hzero, Nat.mul_zero, Nat.zero_mod] at hmod
    exact zero_ne_one hmod
  case unique =>
    rw [mul_mod_eq_one_iff, ← hinv] at huinv
    exact (natCast_eq_iff hu (finv (s.readF a)).isLt).1 (mul_left_cancel₀ (mt toField_eq_zero_iff.1 ha) huinv)

/-! ### The square root (R181) -/

/-- The candidate and its negative have the same square. -/
theorem toField_candidateRoot_sq (v : Fe) (lsb : Nat) :
    toField (candidateRoot v lsb) ^ 2 = toField v ^ ((fieldPrime + 1) / 2) := by
  have hexponent : sqrtExponent * 2 = (fieldPrime + 1) / 2 := by decide
  have hcandidate : toField (fpow v sqrtExponent) ^ 2 = toField v ^ ((fieldPrime + 1) / 2) := by
    rw [toField_fpow, ← pow_mul, hexponent]
  rw [← hcandidate, candidateRoot]
  split
  · rw [toField_ofNat, Nat.cast_sub (fpow v sqrtExponent).isLt.le, ZMod.natCast_self, zero_sub, neg_sq, toField]
  · rfl

/-- Euler: the power (p + 1)/2 of a square is the square itself. -/
theorem pow_half_eq_self_of_isSquare {x : ZMod fieldPrime} (hx : IsSquare x) : x ^ ((fieldPrime + 1) / 2) = x := by
  have : Fact fieldPrime.Prime := ⟨fieldPrime_prime⟩
  obtain ⟨r, rfl⟩ := hx
  have hexponent : (fieldPrime + 1) / 2 + (fieldPrime + 1) / 2 = fieldPrime + 1 := by decide
  rw [← pow_two, ← pow_mul, two_mul, hexponent, pow_succ, ZMod.pow_card, pow_two]

theorem candidateRoot_square {v : Fe} (hv : IsSquare (toField v)) (lsb : Nat) :
    (candidateRoot v lsb).val * (candidateRoot v lsb).val % fieldPrime = v.val := by
  rw [mul_mod_eq_val_iff, ← pow_half_eq_self_of_isSquare hv, ← toField_candidateRoot_sq v lsb, pow_two, toField]

/-- p is odd: the low bits of a non-zero integer below p and of its negative are different. -/
theorem fieldPrime_sub_mod_two {u : Nat} (hpos : u ≠ 0) (hu : u < fieldPrime) :
    (fieldPrime - u) % fieldPrime % 2 = 1 - u % 2 := by
  have hodd : fieldPrime % 2 = 1 := by decide
  rw [Nat.mod_eq_of_lt (Nat.sub_lt fieldPrime_pos (Nat.pos_of_ne_zero hpos))]
  omega

/-- A non-zero root has the requested low bit. -/
theorem candidateRoot_lsb {v : Fe} {lsb : Nat} (hlsb : lsb ≤ 1) (hroot : candidateRoot v lsb ≠ Fe.ofNat 0) :
    (candidateRoot v lsb).val % 2 = lsb := by
  rw [candidateRoot] at hroot ⊢
  split at hroot
  next hother =>
    rw [if_pos hother, ofNat_val]
    have hnonzero : (fpow v sqrtExponent).val ≠ 0 := fun hzero => by
      rw [hzero] at hroot
      exact hroot (by decide)
    rw [fieldPrime_sub_mod_two hnonzero (fpow v sqrtExponent).isLt]
    omega
  next hsame => rw [if_neg hsame, not_not.1 hsame]

/-- Settles O37: on a square the candidate is a root by Euler's criterion; a root is itself what shows a square. -/
theorem fsqrtCompletesExactlyOnSquares : Obligations.FsqrtCompletesExactlyOnSquares := by
  intro d a imm s himm
  refine ⟨fun hsquare => ?root, fun hnot => ?none⟩
  case root =>
    have hroot := candidateRoot_square (exists_square_iff.1 hsquare) imm.toNat
    obtain ⟨t, hexec, hok, hwrote⟩ :=
      completes_of_exec_eq_commit_writeF (exec_fsqrt_of_square_eq d a himm rfl hroot)
    refine ⟨t, _, hexec, hok, hwrote, hroot, fun hne => candidateRoot_lsb himm fun hzero => hne ?_⟩
    rw [← hroot, hzero]
    decide
  case none =>
    exact fails_of_exec_eq_commit_error rfl (exec_fsqrt_of_square_ne d a himm rfl fun hroot => hnot ⟨_, hroot⟩)

end Sys2Proof.Machine
end

section
/-! SUPPORT. The addition law of the curve x² + y² = 1 + d x² y² over a field in which d is no square (45_point.md R201,
R204): it is complete, and the sum of two points of the curve is on it. -/

namespace Sys2Proof.Machine

/-! ### The curve over any field -/

/-- The curve equation of R201. -/
def OnEdwards {R : Type} [CommRing R] (d x y : R) : Prop := x ^ 2 + y ^ 2 = 1 + d * x ^ 2 * y ^ 2

section
variable {K : Type} [Field K] {d x₁ y₁ x₂ y₂ m : K}

/-- Two products that agree up to the factor d make d a square. -/
theorem isSquare_of_sq_eq_mul_sq {u v : K} (hv : v ≠ 0) (h : u ^ 2 = d * v ^ 2) : IsSquare d :=
  ⟨u / v, by field_simp; exact h.symm⟩

/-- A denominator that vanishes makes d a square: with ε = m = ±1, (x₁ + ε y₁)² = d (x₁ y₁ (x₂ + y₂))², and the same
with y₁ and y₂ negated; x₂ + y₂ and x₂ - y₂ are not both 0. -/
theorem isSquare_of_sq_eq_one (htwo : (2 : K) ≠ 0) (h₁ : OnEdwards d x₁ y₁) (h₂ : OnEdwards d x₂ y₂)
    (hm : m = d * x₁ * x₂ * y₁ * y₂) (hone : m ^ 2 = 1) : IsSquare d := by
  unfold OnEdwards at h₁ h₂
  have hne : m ≠ 0 := fun hzero => by simp [hzero] at hone
  rw [hm] at hne
  simp only [mul_ne_zero_iff] at hne
  obtain ⟨⟨⟨⟨hd, hx₁⟩, hx₂⟩, hy₁⟩, hy₂⟩ := hne
  have hplus : (x₁ + m * y₁) ^ 2 = d * (x₁ * y₁ * (x₂ + y₂)) ^ 2 := by
    linear_combination h₁ + (y₁ ^ 2 - 1) * hone - d * x₁ ^ 2 * y₁ ^ 2 * h₂ +
      (2 * x₁ * y₁ + m + d * x₁ * x₂ * y₁ * y₂) * hm
  have hminus : (x₁ - m * y₁) ^ 2 = d * (x₁ * y₁ * (x₂ - y₂)) ^ 2 := by
    linear_combination h₁ + (y₁ ^ 2 - 1) * hone - d * x₁ ^ 2 * y₁ ^ 2 * h₂ +
      (-2 * x₁ * y₁ + m + d * x₁ * x₂ * y₁ * y₂) * hm
  by_cases hsum : x₂ + y₂ = 0
  · have hdifference : x₂ - y₂ ≠ 0 := fun hzero => by
      have hdouble : 2 * x₂ = 0 := by linear_combination hsum + hzero
      exact mul_ne_zero htwo hx₂ hdouble
    exact isSquare_of_sq_eq_mul_sq (mul_ne_zero (mul_ne_zero hx₁ hy₁) hdifference) hminus
  · exact isSquare_of_sq_eq_mul_sq (mul_ne_zero (mul_ne_zero hx₁ hy₁) hsum) hplus

/-- The addition law is complete where d is no square. -/
theorem denominators_ne_zero (htwo : (2 : K) ≠ 0) (hd : ¬ IsSquare d) (h₁ : OnEdwards d x₁ y₁)
    (h₂ : OnEdwards d x₂ y₂) (hm : m = d * x₁ * x₂ * y₁ * y₂) : 1 + m ≠ 0 ∧ 1 - m ≠ 0 := by
  have hsq : m ^ 2 ≠ 1 := mt (isSquare_of_sq_eq_one htwo h₁ h₂ hm) hd
  refine ⟨fun hzero => hsq ?_, fun hzero => hsq ?_⟩
  · linear_combination (m - 1) * hzero
  · linear_combination (-m - 1) * hzero

/-- The equation of the sum, cleared of the denominators, is in the ideal of the equations of the two points. -/
theorem sum_equation_cleared (h₁ : OnEdwards d x₁ y₁) (h₂ : OnEdwards d x₂ y₂) (hm : m = d * x₁ * x₂ * y₁ * y₂) :
    (x₁ * y₂ + y₁ * x₂) ^ 2 * (1 - m) ^ 2 + (y₁ * y₂ - x₁ * x₂) ^ 2 * (1 + m) ^ 2 =
      (1 + m) ^ 2 * (1 - m) ^ 2 + d * (x₁ * y₂ + y₁ * x₂) ^ 2 * (y₁ * y₂ - x₁ * x₂) ^ 2 := by
  unfold OnEdwards at h₁ h₂
  subst hm
  grind

/-- The sum of two points of the curve is on it. -/
theorem onEdwards_add {x₃ y₃ : K} (h₁ : OnEdwards d x₁ y₁) (h₂ : OnEdwards d x₂ y₂)
    (hm : m = d * x₁ * x₂ * y₁ * y₂) (hplus : 1 + m ≠ 0) (hminus : 1 - m ≠ 0)
    (hx : x₃ * (1 + m) = x₁ * y₂ + y₁ * x₂) (hy : y₃ * (1 - m) = y₁ * y₂ - x₁ * x₂) : OnEdwards d x₃ y₃ := by
  have hcleared := sum_equation_cleared h₁ h₂ hm
  rw [← hx, ← hy] at hcleared
  have hdenominator : (1 + m) ^ 2 * (1 - m) ^ 2 ≠ 0 := mul_ne_zero (pow_ne_zero 2 hplus) (pow_ne_zero 2 hminus)
  exact mul_right_cancel₀ hdenominator (by linear_combination hcleared)

end

/-! ### The points of the model -/

/-- The curve constant d in the field (00_scope.md R10). -/
def fieldD : ZMod fieldPrime := -39081

theorem toField_curveD : toField Config.curveD = fieldD := by
  rw [Config.curveD, toField_ofNat, Nat.cast_sub (by decide), ZMod.natCast_self, zero_sub, fieldD, Nat.cast_ofNat]

theorem not_isSquare_fieldD : ¬ IsSquare fieldD := by
  have hsymbol : jacobiSym (-39081) fieldPrime = -1 := by norm_num [fieldPrime]
  have hnot := ZMod.nonsquare_of_jacobiSym_eq_neg_one hsymbol
  rwa [Int.cast_neg, Int.cast_ofNat] at hnot

theorem two_ne_zero_of_field : (2 : ZMod fieldPrime) ≠ 0 := by
  have hzero : ((2 : Nat) : ZMod fieldPrime) ≠ ((0 : Nat) : ZMod fieldPrime) :=
    mt (natCast_eq_iff (by decide) (by decide)).1 (by decide)
  simpa using hzero

/-- The check of R201 is the curve equation in the field. -/
theorem onCurve_iff_onEdwards {q : Point} : onCurve q = true ↔ OnEdwards fieldD (toField q.x) (toField q.y) := by
  rw [onCurve, beq_iff_eq, ← toField_inj, OnEdwards]
  simp only [toField_fadd, toField_fmul, toField_ofNat, toField_curveD, Nat.cast_one, ← pow_two, mul_assoc]

theorem onCurve_neutral : onCurve Config.neutral = true := by decide

/-- A field quotient times its denominator is its numerator. -/
theorem toField_fmul_finv_mul (num : Fe) {den : Fe} (h : toField den ≠ 0) :
    toField (fmul num (finv den)) * toField den = toField num := by
  rw [toField_fmul, mul_assoc, mul_comm (toField (finv den)), toField_mul_toField_finv (mt toField_eq_zero_iff.2 h),
    mul_one]

/-- The product m = d x₁ x₂ y₁ y₂ of R204, as `ptAdd` computes it. -/
def additionProduct (q₁ q₂ : Point) : Fe := fmul Config.curveD (fmul (fmul q₁.x q₂.x) (fmul q₁.y q₂.y))

theorem toField_additionProduct (q₁ q₂ : Point) : toField (additionProduct q₁ q₂) =
    fieldD * toField q₁.x * toField q₂.x * toField q₁.y * toField q₂.y := by
  simp only [additionProduct, toField_fmul, toField_curveD]
  ring

theorem toField_one_add (a : Fe) : toField (fadd (Fe.ofNat 1) a) = 1 + toField a := by
  rw [toField_fadd, toField_ofNat, Nat.cast_one]

theorem toField_one_sub (a : Fe) : toField (fsub (Fe.ofNat 1) a) = 1 - toField a := by
  rw [toField_fsub, toField_ofNat, Nat.cast_one]

section
variable {q₁ q₂ : Point} (h₁ : onCurve q₁ = true) (h₂ : onCurve q₂ = true)
include h₁ h₂

theorem additionProduct_denominators :
    1 + toField (additionProduct q₁ q₂) ≠ 0 ∧ 1 - toField (additionProduct q₁ q₂) ≠ 0 := by
  have : Fact fieldPrime.Prime := ⟨fieldPrime_prime⟩
  exact denominators_ne_zero two_ne_zero_of_field not_isSquare_fieldD (onCurve_iff_onEdwards.1 h₁)
    (onCurve_iff_onEdwards.1 h₂) (toField_additionProduct q₁ q₂)

/-- The coordinates of the sum, cleared of division. -/
theorem toField_ptAdd :
    toField (ptAdd q₁ q₂).x * (1 + toField (additionProduct q₁ q₂)) =
      toField q₁.x * toField q₂.y + toField q₁.y * toField q₂.x ∧
    toField (ptAdd q₁ q₂).y * (1 - toField (additionProduct q₁ q₂)) =
      toField q₁.y * toField q₂.y - toField q₁.x * toField q₂.x := by
  obtain ⟨hplus, hminus⟩ := additionProduct_denominators h₁ h₂
  rw [← toField_one_add] at hplus ⊢
  rw [← toField_one_sub] at hminus ⊢
  refine ⟨(toField_fmul_finv_mul _ hplus).trans ?_, (toField_fmul_finv_mul _ hminus).trans ?_⟩
  · rw [toField_fadd, toField_fmul, toField_fmul]
  · rw [toField_fsub, toField_fmul, toField_fmul]

theorem onCurve_ptAdd : onCurve (ptAdd q₁ q₂) = true := by
  have : Fact fieldPrime.Prime := ⟨fieldPrime_prime⟩
  obtain ⟨hplus, hminus⟩ := additionProduct_denominators h₁ h₂
  obtain ⟨hx, hy⟩ := toField_ptAdd h₁ h₂
  exact onCurve_iff_onEdwards.2 (onEdwards_add (onCurve_iff_onEdwards.1 h₁) (onCurve_iff_onEdwards.1 h₂)
    (toField_additionProduct q₁ q₂) hplus hminus hx hy)

end

theorem onCurve_mulLoop {q : Point} (hq : onCurve q = true) (k i : Nat) {v : Point} (hv : onCurve v = true) :
    onCurve (mulLoop q k i v) = true := by
  induction i generalizing v with
  | zero => exact hv
  | succ i ih =>
    have hdouble := onCurve_ptAdd hv hv
    rw [mulLoop_succ, doubleAndAdd]
    split
    · exact ih (onCurve_ptAdd hdouble hq)
    · exact ih hdouble

theorem onCurve_scalarMultiply {q : Point} (hq : onCurve q = true) (k : Nat) :
    onCurve (scalarMultiply q k) = true :=
  onCurve_mulLoop hq k _ onCurve_neutral

/-- The denominator of R203 does not vanish: d x² = 1 would make d a square. -/
theorem one_sub_fieldD_mul_sq_ne_zero (x : ZMod fieldPrime) : 1 - fieldD * x ^ 2 ≠ 0 := by
  have : Fact fieldPrime.Prime := ⟨fieldPrime_prime⟩
  intro hzero
  have hx : x ≠ 0 := fun hx => by simp [hx] at hzero
  exact not_isSquare_fieldD (isSquare_of_sq_eq_mul_sq hx (u := 1) (by linear_combination hzero))

theorem toField_radicand_mul (x : Fe) :
    toField (radicand x) * (1 - fieldD * toField x ^ 2) = 1 - toField x ^ 2 := by
  have hden : toField (fsub (Fe.ofNat 1) (fmul Config.curveD (fmul x x))) = 1 - fieldD * toField x ^ 2 := by
    rw [toField_one_sub, toField_fmul, toField_fmul, toField_curveD, pow_two]
  have hquotient := toField_fmul_finv_mul (fsub (Fe.ofNat 1) (fmul x x))
    (hden ▸ one_sub_fieldD_mul_sq_ne_zero (toField x))
  rwa [hden, toField_one_sub, toField_fmul x x, ← pow_two] at hquotient

/-- A root of the radicand completes x to a point of the curve. -/
theorem onCurve_of_square_eq_radicand {x y : Fe} (h : fmul y y = radicand x) : onCurve ⟨x, y⟩ = true := by
  have hradicand := toField_radicand_mul x
  rw [← h, toField_fmul] at hradicand
  rw [onCurve_iff_onEdwards, OnEdwards]
  linear_combination hradicand

/-- Settles O41: the two denominators are the field's, and `ptAdd` divides by them. -/
theorem ptaddMeetsTheCompleteAdditionLaw : Obligations.PtaddMeetsTheCompleteAdditionLaw := by
  intro d a b s x1 y1 x2 y2 m ha hb hx1 hy1 hx2 hy2 hm
  have hproduct : toField (additionProduct (s.readP a) (s.readP b)) = m := by
    rw [toField_additionProduct, hm, hx1, hy1, hx2, hy2, fieldD]
    rfl
  have hdenominators := additionProduct_denominators ha hb
  have hsum := toField_ptAdd ha hb
  simp only [hproduct, toField_eq, ← hx1, ← hy1, ← hx2, ← hy2] at hdenominators hsum
  obtain ⟨hplus, hminus⟩ := hdenominators
  obtain ⟨t, hexec, hok, hwrote⟩ := completes_of_exec_eq_commit_writeP (exec_ptadd d a b s)
  exact ⟨hplus, hminus, t, _, hexec, hok, hwrote, onCurve_ptAdd ha hb, hsum⟩

end Sys2Proof.Machine
end

section
/-! SUPPORT. Everything a command can do, said once (30_encoding.md R89): it writes its destination and completes with
OK, or it raises one of its listed errors (60_exceptions.md R261) and writes nothing; class S clears A either way. -/

namespace Sys2Proof.Machine

/-! ### A computation that gives a value or an error -/

/-- A value the computation gives is good, and an error it raises is one of the listed. -/
inductive Yields {α : Type} (good : α → Prop) (listed : Err → Prop) : Except Err α → Prop
  | ok {x : α} (h : good x) : Yields good listed (.ok x)
  | error {e : Err} (h : listed e) : Yields good listed (.error e)

section
variable {α β : Type} {good good' : α → Prop} {listed listed' : Err → Prop} {result : Except Err α}

/-- A check before the computation: what follows may use that the check has passed. -/
theorem yields_check {c : Prop} [Decidable c] {e : Err} (hrest : ¬ c → Yields good listed result)
    (herr : listed e := by simp [canRaise]) : Yields good listed (if c then .error e else result) := by
  split
  next => exact .error herr
  next hpassed => exact hrest hpassed

theorem yields_mono (h : Yields good listed result) (hgood : ∀ x, good x → good' x)
    (hlisted : ∀ e, listed e → listed' e) : Yields good' listed' result := by
  cases h with
  | ok h => exact .ok (hgood _ h)
  | error h => exact .error (hlisted _ h)

/-- The result of a computation, used in a write. -/
theorem yields_map {use : α → β} {goodUse : β → Prop} (h : Yields good listed' result)
    (huse : ∀ x, good x → goodUse (use x)) (hlisted : ∀ e, listed' e → listed e := by simp [canRaise]) :
    Yields goodUse listed (result.map use) := by
  cases h with
  | ok h => exact .ok (huse _ h)
  | error h => exact .error (hlisted _ h)

end

/-! ### The functions that can fail -/

theorem fsqrt_yields (v : Fe) (lsb : Nat) :
    Yields (fun root => fmul root root = v) (· = .noSquareRoot) (fsqrt v lsb) := by
  rw [fsqrt_eq]
  exact yields_check (fun h => .ok (not_not.1 h)) rfl

theorem pointNew_yields (x y : Fe) : Yields (onCurve · = true) (· = .invalidPoint) (pointNew x y) := by
  by_cases h : onCurve ⟨x, y⟩ = true
  · rw [pointNew_of_onCurve h]
    exact .ok h
  · rw [pointNew_of_not_onCurve h]
    exact .error rfl

theorem ptDec_yields (x : Bytes) : Yields (onCurve · = true) (· = .invalidPoint) (ptDec x) := by
  rw [ptDec]
  exact pointNew_yields _ _

theorem pointFromX_yields (x : Fe) (lsb : Nat) :
    Yields (onCurve · = true) (· = .noSquareRoot) (pointFromX x lsb) := by
  have hfsqrt : pointFromX x lsb = (fsqrt (radicand x) lsb).map (Point.mk x) := rfl
  rw [hfsqrt]
  exact yields_map (fsqrt_yields (radicand x) lsb) (fun _ hroot => onCurve_of_square_eq_radicand hroot) fun _ => id

/-- The text of a part of a cryptogram is no longer than the cryptogram. -/
theorem openText_yields (derived cg t : Bytes) (lo hi : Nat) : Yields (fun m => m.length ≤ cg.length)
    (· = .authenticationFailure) (openText derived (slice cg lo hi) t) := by
  dsimp only [openText]
  refine yields_check (fun _ => .ok ((xorBytes_length _ _).trans_le ?_)) rfl
  rw [slice_length]
  omega

theorem decryptSym_yields (cg pw : Bytes) :
    Yields (fun m => m.length ≤ cg.length) (· = .authenticationFailure) (decryptSym cg pw) := by
  rw [decryptSym_eq rfl]
  exact openText_yields _ _ _ _ _

theorem decryptPk_yields (prm : Config.Params) (cg pw : Bytes) : Yields (fun m => m.length ≤ cg.length)
    (· ∈ [.invalidPoint, .authenticationFailure]) (decryptPk prm cg pw) := by
  by_cases h : onCurve (cryptogramPoint cg) = true
  · rw [decryptPk_of_onCurve h rfl]
    exact yields_mono (openText_yields _ _ _ _ _) (fun _ => id) (by simp)
  · rw [decryptPk_of_not_onCurve (Bool.eq_false_iff.2 h)]
    exact .error List.mem_cons_self

/-! ### The lengths of what the commands write -/

theorem encodedInteger_length_le {x : Nat} (h : ¬ 255 < minLen x) :
    (leftEncode x).length ≤ 256 ∧ (rightEncode x).length ≤ 256 := by
  have hx : x < 2 ^ 2040 := minLen_le_255_iff.1 (Nat.le_of_not_lt h)
  exact ⟨leftEncode_length_le hx, rightEncode_length_le hx⟩

theorem bytepad_length (x : Bytes) (w : Nat) :
    (bytepad x w).length = (leftEncode w ++ x).length + padTo (leftEncode w ++ x).length w := by
  simp [bytepad, Nat.add_assoc]

theorem substring_length_le (x : Bytes) (lo hi : Nat) : (substring x lo hi).length ≤ x.length := by
  by_cases h : hi ≤ lo ∨ x.length ≤ lo
  · simp [substring_of_empty h]
  · rw [substring_length h]
    omega

theorem cshake256_length (m : Bytes) (bits : Nat) (name custom : Bytes) :
    (cshake256 m bits name custom).length = bits / 8 := by
  rw [cshake256]
  split
  · exact sponge_length _ _ _
  · exact sponge_length _ _ _

theorem ptEnc_length (q : Point) : (ptEnc q).length = 112 := by
  rw [ptEnc_eq, List.length_append, i2osp_length, i2osp_length]

theorem sealText_length {derived : Bytes} (hderived : derived.length = 128) (m : Bytes) :
    (sealText derived m).length = m.length + 64 := by
  rw [sealText_eq hderived, List.length_append, xorBytes_length, kmacxof256_length, kmacxof256_length,
    Nat.mul_div_cancel_left _ (by decide), min_self]

theorem encryptPk_length (prm : Config.Params) (m : Bytes) (v : Point) (rnd : Bytes) :
    (encryptPk prm m v rnd).length = 176 + m.length := by
  rw [encryptPk_eq, List.length_append, ptEnc_length, sealText_length (derivePk_length _)]
  omega

theorem encryptSym_length (m pw nonce : Bytes) : (encryptSym m pw nonce).length = nonce.length + 64 + m.length := by
  rw [encryptSym, List.length_append, sealText_length (deriveSym_length _ _)]
  omega

theorem signMessage_length (prm : Config.Params) (m pw : Bytes) : (signMessage prm m pw).length = 120 := by
  simp [signMessage, Config.hBytes, Config.zBytes]

/-! ### The effect of a command -/

/-- Whether the buffer space has room for what a command writes: every buffer within BMAX, which is conforming. -/
def Roomy (s : State) : Prop := (∀ j, (s.readB j).length ≤ s.params.bmax) ∧ 512 ≤ s.params.bmax

/-- What a command that reaches no error has written: its destination in one register file, or for KEYPAIR in two.
A buffer is within BMAX where all were, and a point is on the curve where all were. -/
inductive Effect (i : Instr) (s : State) : State → Prop
  | lanes {a : Lanes} (h : writesA i = true) : Effect i s (s.writeA a)
  | buffer {d : Idx8} {x : Bytes} (h : destB i = some d) (hfits : Roomy s → x.length ≤ s.params.bmax) :
      Effect i s (s.writeB d x)
  | integer {d : Idx8} {v : BitVec 64} (h : destN i = some d) : Effect i s (s.writeN d v)
  | field {d : Idx8} {v : Fe} (h : destF i = some d) : Effect i s (s.writeF d v)
  | scalar {d : Idx4} {v : BitVec 512} (h : destK i = some d) : Effect i s (s.writeK d v)
  | point {d : Idx4} {q : Point} (h : destP i = some d) (hcurve : PointsOnCurve s → onCurve q = true) :
      Effect i s (s.writeP d q)
  | scalarAndPoint {d e : Idx4} {v : BitVec 512} {q : Point} (hk : destK i = some d) (hp : destP i = some e)
      (hcurve : PointsOnCurve s → onCurve q = true) : Effect i s ((s.writeK d v).writeP e q)

section
variable {i : Instr} {s : State} {d : Idx8}

/-- A write of no more bytes than any conforming BMAX. -/
theorem Effect.bounded {x : Bytes} (h : destB i = some d) {n : Nat} (hx : x.length ≤ n) (hn : n ≤ 512) :
    Effect i s (s.writeB d x) :=
  .buffer h fun ⟨_, hbmax⟩ => hx.trans (hn.trans hbmax)

/-- A write of no more bytes than a buffer holds already. -/
theorem Effect.shrinks {x : Bytes} (h : destB i = some d) (j : Idx8) (hx : x.length ≤ (s.readB j).length) :
    Effect i s (s.writeB d x) :=
  .buffer h fun ⟨hbuffers, _⟩ => hx.trans (hbuffers j)

/-- A write whose capacity check has passed. -/
theorem Effect.checked {x : Bytes} (h : destB i = some d) {n : Nat} (hcheck : ¬ s.params.bmax < n)
    (hx : x.length = n) : Effect i s (s.writeB d x) :=
  .buffer h fun _ => hx.trans_le (Nat.le_of_not_lt hcheck)

end

/-- The shared end of a command: `commitS` for class S, `commit` for the others. -/
def commitOf (i : Instr) (written : Except Err State) (s : State) : Out :=
  match classS i with
  | true => commitS written s
  | false => commit written s

/-- Every command commits its effect or one of its listed errors. -/
theorem exec_commits_effect (i : Instr) (s : State) :
    ∃ written, exec i s = commitOf i written s ∧ Yields (Effect i s) (· ∈ canRaise i) written := by
  cases i with
  | ald a => exact ⟨_, rfl, yields_check fun _ => .ok (.lanes rfl)⟩
  | ast d => exact ⟨_, rfl, .ok (.bounded rfl (bytesOfLanes_length _).le (by decide))⟩
  | fld d a => exact ⟨_, rfl, yields_check fun _ => .ok (.field rfl)⟩
  | fst d a => exact ⟨_, rfl, .ok (.bounded rfl (i2osp_length _ _).le (by decide))⟩
  | kld d a => exact ⟨_, rfl, yields_check fun _ => .ok (.scalar rfl)⟩
  | kst d a => exact ⟨_, rfl, .ok (.bounded rfl (i2osp_length _ _).le (by decide))⟩
  | lenc d a =>
    exact ⟨_, rfl, yields_check fun h => .ok (.bounded rfl (encodedInteger_length_le h).1 (by decide))⟩
  | renc d a =>
    exact ⟨_, rfl, yields_check fun h => .ok (.bounded rfl (encodedInteger_length_le h).2 (by decide))⟩
  | encstr d a => exact ⟨_, rfl, yields_check fun h => .ok (.checked rfl h rfl)⟩
  | bytepad d a b =>
    exact ⟨_, rfl, yields_check fun _ =>
      yields_check fun h => .ok (.checked rfl h (bytepad_length _ _))⟩
  | substr d a b c => exact ⟨_, rfl, .ok (.shrinks rfl a (substring_length_le _ _ _))⟩
  | kp => exact ⟨_, rfl, .ok (.lanes rfl)⟩
  | sponge d a b c =>
    exact ⟨_, rfl, yields_check fun _ => yields_check fun _ =>
      yields_check fun h => .ok (.checked rfl h (sponge_length _ _ _))⟩
  | shake d a b =>
    exact ⟨_, rfl, yields_check fun _ =>
      yields_check fun h => .ok (.checked rfl h (sponge_length _ _ _))⟩
  | cshake d a b c e =>
    exact ⟨_, rfl, yields_check fun _ =>
      yields_check fun h => .ok (.checked rfl h (cshake256_length _ _ _ _))⟩
  | kmac d a b c e =>
    exact ⟨_, rfl, yields_check fun _ =>
      yields_check fun h => .ok (.checked rfl h (kmacxof256_length _ _ _ _))⟩
  | fadd d a b => exact ⟨_, rfl, .ok (.field rfl)⟩
  | fsub d a b => exact ⟨_, rfl, .ok (.field rfl)⟩
  | fmul d a b => exact ⟨_, rfl, .ok (.field rfl)⟩
  | finv d a => exact ⟨_, rfl, yields_check fun _ => .ok (.field rfl)⟩
  | fsqrt d a imm =>
    exact ⟨_, rfl, yields_map (fsqrt_yields _ _) (fun _ _ => .field rfl)⟩
  | ptnew d a b =>
    exact ⟨_, rfl, yields_map (pointNew_yields _ _) (fun _ hq => .point rfl fun _ => hq)⟩
  | ptfromx d a imm =>
    exact ⟨_, rfl, yields_map (pointFromX_yields _ _) (fun _ hq => .point rfl fun _ => hq)⟩
  | ptadd d a b => exact ⟨_, rfl, .ok (.point rfl fun ⟨hp, _⟩ => onCurve_ptAdd (hp a) (hp b))⟩
  | ptmul d a b => exact ⟨_, rfl, .ok (.point rfl fun ⟨hp, _⟩ => onCurve_scalarMultiply (hp a) _)⟩
  | ptenc d a => exact ⟨_, rfl, .ok (.bounded rfl (ptEnc_length _).le (by decide))⟩
  | ptdec d a =>
    exact ⟨_, rfl, yields_check fun _ =>
      yields_map (ptDec_yields _) (fun _ hq => .point rfl fun _ => hq)⟩
  | ptg d => exact ⟨_, rfl, .ok (.point rfl fun ⟨_, hg⟩ => hg)⟩
  | keypair d e a => exact ⟨_, rfl, .ok (.scalarAndPoint rfl rfl fun ⟨_, hg⟩ => onCurve_scalarMultiply hg _)⟩
  | encpk d a b c =>
    exact ⟨_, rfl, yields_check fun _ =>
      yields_check fun h => .ok (.checked rfl h (encryptPk_length _ _ _ _))⟩
  | decpk d a b =>
    exact ⟨_, rfl, yields_check fun _ =>
      yields_map (decryptPk_yields _ _ _) (fun _ hm => .shrinks rfl a hm)⟩
  | encsym d a b c =>
    refine ⟨_, rfl, yields_check fun hnonce =>
      yields_check fun h => .ok (.checked rfl h ?_)⟩
    rw [encryptSym_length, not_not.1 hnonce]
    rfl
  | decsym d a b =>
    exact ⟨_, rfl, yields_check fun _ =>
      yields_map (decryptSym_yields _ _) (fun _ hm => .shrinks rfl a hm)⟩
  | sign d a b => exact ⟨_, rfl, .ok (.bounded rfl (signMessage_length _ _ _).le (by decide))⟩
  | verify d a b c => exact ⟨_, rfl, yields_check fun _ => .ok (.integer rfl)⟩

end Sys2Proof.Machine
end

section
/-! SUPPORT. What every command leaves (30_encoding.md R89, 60_exceptions.md R261): its code is OK or a listed
error, and only its destination, STATUS and A can have changed. -/

namespace Sys2Proof.Machine

/-- A is 0 after a class-S command, whatever it wrote (10_state.md R28). -/
def clearS (i : Instr) (s : State) : State := if classS i then s.writeA zeroLanes else s

/-- Everything a command can do: complete with its effect, or raise a listed error where it stood. -/
theorem exec_cases (i : Instr) (s : State) :
    (∃ t, Effect i s t ∧ exec i s = .next (complete (clearS i t))) ∨
      ∃ e ∈ canRaise i, exec i s = .next (raise e (clearS i s)) := by
  obtain ⟨written, hexec, hyields⟩ := exec_commits_effect i s
  cases hyields with
  | ok heffect =>
    refine .inl ⟨_, heffect, hexec.trans ?_⟩
    cases hclass : classS i <;> simp [commitOf, clearS, hclass]
  | error hlisted =>
    refine .inr ⟨_, hlisted, hexec.trans ?_⟩
    cases hclass : classS i <;> simp [commitOf, clearS, hclass]

section
variable {i : Instr} {s t : State}

@[simp] theorem clearS_status : (clearS i s).status = s.status := by
  unfold clearS; split <;> rfl

@[simp] theorem clearS_readN (j : Idx8) : (clearS i s).readN j = s.readN j := by
  unfold clearS; split <;> rfl
@[simp] theorem clearS_readB (j : Idx8) : (clearS i s).readB j = s.readB j := by
  unfold clearS; split <;> rfl
@[simp] theorem clearS_readF (j : Idx8) : (clearS i s).readF j = s.readF j := by
  unfold clearS; split <;> rfl
@[simp] theorem clearS_readP (j : Idx4) : (clearS i s).readP j = s.readP j := by
  unfold clearS; split <;> rfl
@[simp] theorem clearS_readK (j : Idx4) : (clearS i s).readK j = s.readK j := by
  unfold clearS; split <;> rfl

theorem Effect.status_eq (h : Effect i s t) : t.status = s.status := by
  cases h <;> rfl

/-! ### The code -/

/-- Settles O10: by the two ways a command can end. -/
theorem everyCommandCompletesWithAListedCode : Obligations.EveryCommandCompletesWithAListedCode := by
  intro i s
  obtain ⟨t, heffect, hexec⟩ | ⟨e, hlisted, hexec⟩ := exec_cases i s
  · obtain ⟨hbusy, hdone, hcode, hestk, hshown⟩ := complete_completedOk (clearS_status.trans heffect.status_eq)
    exact ⟨_, hexec, hbusy, hdone, hshown, .inl ⟨hcode, hestk⟩⟩
  · exact ⟨_, hexec, by simp, by simp, by simp, .inr ⟨e, hlisted, by simp⟩⟩

/-! ### The frame -/

/-- The register files and buffers outside the command's destinations are as before, and A unless it writes A. -/
structure KeepsOthers (i : Instr) (s t : State) : Prop where
  n : ∀ j, destN i ≠ some j → t.readN j = s.readN j
  b : ∀ j, destB i ≠ some j → t.readB j = s.readB j
  f : ∀ j, destF i ≠ some j → t.readF j = s.readF j
  p : ∀ j, destP i ≠ some j → t.readP j = s.readP j
  k : ∀ j, destK i ≠ some j → t.readK j = s.readK j
  a : writesA i = false → t.a = s.a

theorem KeepsOthers.refl (i : Instr) (s : State) : KeepsOthers i s s := by
  constructor <;> intros <;> rfl

/-- A destination is no register that the frame speaks of. -/
theorem ne_of_dest {n : Nat} {dest : Option (Fin n)} {d j : Fin n} (hd : dest = some d) (hj : dest ≠ some j) : j ≠ d :=
  fun h => hj (h ▸ hd)

theorem Effect.keepsOthers (h : Effect i s t) : KeepsOthers i s t := by
  cases h with
  | lanes h => exact { KeepsOthers.refl i s with a := by simp [h] }
  | buffer h => exact { KeepsOthers.refl i s with b := fun j hj => by simp [ne_of_dest h hj] }
  | integer h => exact { KeepsOthers.refl i s with n := fun j hj => by simp [ne_of_dest h hj] }
  | field h => exact { KeepsOthers.refl i s with f := fun j hj => by simp [ne_of_dest h hj] }
  | scalar h => exact { KeepsOthers.refl i s with k := fun j hj => by simp [ne_of_dest h hj] }
  | point h => exact { KeepsOthers.refl i s with p := fun j hj => by simp [ne_of_dest h hj] }
  | scalarAndPoint hk hp =>
    exact { KeepsOthers.refl i s with
      k := fun j hj => by simp [ne_of_dest hk hj]
      p := fun j hj => by simp [ne_of_dest hp hj] }

/-- A class-S command is one that writes A. -/
theorem classS_eq_false_of_writesA (h : writesA i = false) : classS i = false := by
  revert h
  cases i <;> simp [classS, writesA]

theorem KeepsOthers.clearS (h : KeepsOthers i s t) : KeepsOthers i s (clearS i t) where
  n := fun j hj => (clearS_readN j).trans (h.n j hj)
  b := fun j hj => (clearS_readB j).trans (h.b j hj)
  f := fun j hj => (clearS_readF j).trans (h.f j hj)
  p := fun j hj => (clearS_readP j).trans (h.p j hj)
  k := fun j hj => (clearS_readK j).trans (h.k j hj)
  a := fun ha => by
    rw [Machine.clearS, classS_eq_false_of_writesA ha]
    exact h.a ha

/-- Completing and failing change STATUS alone. -/
theorem KeepsOthers.complete (h : KeepsOthers i s t) : KeepsOthers i s (complete t) := ⟨h.n, h.b, h.f, h.p, h.k, h.a⟩

theorem KeepsOthers.raise (h : KeepsOthers i s t) (e : Err) : KeepsOthers i s (raise e t) :=
  ⟨h.n, h.b, h.f, h.p, h.k, h.a⟩

theorem exec_keepsOthers (h : exec i s = .next t) : KeepsOthers i s t := by
  obtain ⟨u, heffect, hexec⟩ | ⟨e, -, hexec⟩ := exec_cases i s <;> rw [hexec] at h <;> cases h
  · exact heffect.keepsOthers.clearS.complete
  · exact (KeepsOthers.refl i s).clearS.raise e

/-- Settles O13: an effect writes its destinations alone, and no command writes a register of the host port. -/
theorem onlyTheDestinationChanges : Obligations.OnlyTheDestinationChanges := by
  intro i s t h
  have hport := exec_keepsHostPort h
  have hothers := exec_keepsOthers h
  refine ⟨hothers.n, fun j m hj => ?bytes, hothers.f, hothers.p, hothers.k, hothers.a, hport.cmd, hport.bsel,
    hport.bptr, hport.params, hport.inputs, hport.replies⟩
  case bytes => rw [byteAt_eq_getElem?, byteAt_eq_getElem?, hothers.b j hj]

end

end Sys2Proof.Machine
end

section
/-! SUPPORT. Everything one step can do (20_memory.md R55 to R65): the effect of a host access or a reset on the state,
and the two invariants that every effect keeps, the buffers within BMAX with a legal STATUS, and the points on the
curve. -/

namespace Sys2Proof.Machine

/-! ### Which accesses have an outcome (R62, R63) -/

theorem accessRefusal_eq_none_iff {off size : Nat} :
    accessRefusal off size = none ↔ off < 0x80 ∧ size = 4 ∧ off % 4 = 0 := by
  unfold accessRefusal
  split
  next houtside => simp; omega
  next hinside =>
    split
    next hshape => simp; omega
    next hshape => simp; omega

theorem perform_read_of_refusal {off size : Nat} {why : Refusal} (h : accessRefusal off size = some why) (s : State) :
    perform (.read off size) s = .refused why := by
  simp [perform, h]

theorem perform_write_of_refusal {off size : Nat} {why : Refusal} (h : accessRefusal off size = some why) (v : Word)
    (s : State) : perform (.write off size v) s = .refused why := by
  simp [perform, h]

theorem perform_read_of_not_refused {off size : Nat} (h : accessRefusal off size = none) (s : State) :
    perform (.read off size) s = .next { (readReg (hostReg off) s).2 with
      replies := (readReg (hostReg off) s).2.replies ++ [(readReg (hostReg off) s).1] } := by
  simp [perform, h]

theorem perform_write_of_not_refused {off size : Nat} (h : accessRefusal off size = none) (v : Word) (s : State) :
    perform (.write off size v) s = writeReg (hostReg off) v s := by
  simp [perform, h]

/-! ### A command word always completes -/

theorem exec_eq_next (i : Instr) (s : State) : ∃ t, exec i s = .next t := by
  obtain ⟨t, -, hexec⟩ | ⟨e, -, hexec⟩ := exec_cases i s
  · exact ⟨_, hexec⟩
  · exact ⟨_, hexec⟩

theorem issue_eq_next (w : Word) (s : State) : ∃ t, issue w s = .next t := by
  cases hw : decode w with
  | ok i =>
    rw [issue_of_decode_ok hw]
    exact exec_eq_next i _
  | error why => exact ⟨_, issue_of_decode_error hw s⟩

/-! ### What an input does to the state -/

/-- The effect of an input that is not refused. -/
inductive HostEffect (s : State) : State → Prop
  | reset : HostEffect s (applyReset s)
  | read (q v : Word) : HostEffect s { s with bptr := q, replies := s.replies ++ [v] }
  | ignored : HostEffect s s
  | issued {w : Word} {t : State} (h : issue w s = .next t) : HostEffect s t
  | acknowledged (v : Word) : HostEffect s (acknowledge v s)
  | window (sel : BitVec 3) (q : Word) : HostEffect s { s with bsel := sel, bptr := q }
  | resized (v : Word) : HostEffect s (writeLen v s)
  | stored (v : Word) : HostEffect s (writeData v s)
  | integer (i : Idx8) (v : BitVec 64) : HostEffect s (s.writeN i v)

/-- A read of BDATA advances BPTR; no other read changes the state. -/
theorem readReg_state (reg : HostReg) (s : State) :
    (readReg reg s).2 = { s with bptr := (readReg reg s).2.bptr } := by
  cases reg with
  | bdata =>
    simp only [readReg, readData]
    split
    next => rfl
    next => split <;> rfl
  | _ => rfl

/-- A write always has an outcome. -/
theorem writeReg_hostEffect (reg : HostReg) (v : Word) (s : State) :
    ∃ t, writeReg reg v s = .next t ∧ HostEffect s t := by
  cases hbusy : statusBusy s.status with
  | true => exact ⟨s, by simp [writeReg, hbusy], .ignored⟩
  | false =>
    simp only [writeReg, hbusy, Bool.false_eq_true, if_false]
    cases reg with
    | cmd =>
      obtain ⟨t, ht⟩ := issue_eq_next v s
      exact ⟨t, ht, .issued ht⟩
    | status => exact ⟨_, rfl, .acknowledged v⟩
    | bsel => exact ⟨_, rfl, .window _ _⟩
    | bptr => exact ⟨_, rfl, .window s.bsel v⟩
    | blen => exact ⟨_, rfl, .resized v⟩
    | bdata => exact ⟨_, rfl, .stored v⟩
    | bmaxr => exact ⟨s, rfl, .ignored⟩
    | reserved => exact ⟨s, rfl, .ignored⟩
    | nLow i => exact ⟨_, rfl, .integer i _⟩
    | nHigh i => exact ⟨_, rfl, .integer i _⟩

/-- An access is defined exactly when there is no reason to refuse it. -/
theorem isNone_accessRefusal (off size : Nat) :
    (accessRefusal off size).isNone = (decide (off < 0x80) && size == 4 && off % 4 == 0) := by
  rw [Bool.eq_iff_iff, Option.isNone_iff_eq_none, accessRefusal_eq_none_iff]
  simp [and_assoc]

/-- A defined input has an outcome in every state. -/
theorem perform_of_defined {input : Input} (h : input.defined = true) (s : State) :
    ∃ t, perform input s = .next t ∧ HostEffect s t := by
  cases input with
  | reset => exact ⟨_, rfl, .reset⟩
  | read off size =>
    rw [Input.defined, ← isNone_accessRefusal, Option.isNone_iff_eq_none] at h
    refine ⟨_, perform_read_of_not_refused h s, ?_⟩
    rw [readReg_state]
    exact .read _ _
  | write off size v =>
    rw [Input.defined, ← isNone_accessRefusal, Option.isNone_iff_eq_none] at h
    rw [perform_write_of_not_refused h]
    exact writeReg_hostEffect _ v s

theorem perform_of_not_defined {input : Input} (h : input.defined = false) (s : State) :
    ∃ why, perform input s = .refused why := by
  cases input with
  | reset => cases h
  | read off size =>
    rw [Input.defined, ← isNone_accessRefusal, Option.isNone_eq_false_iff, Option.isSome_iff_exists] at h
    obtain ⟨why, hwhy⟩ := h
    exact ⟨why, perform_read_of_refusal hwhy s⟩
  | write off size v =>
    rw [Input.defined, ← isNone_accessRefusal, Option.isNone_eq_false_iff, Option.isSome_iff_exists] at h
    obtain ⟨why, hwhy⟩ := h
    exact ⟨why, perform_write_of_refusal hwhy v s⟩

/-- Settles O60: an access has an outcome exactly when there is no reason to refuse it. -/
theorem definedAccessesAnswerAndOthersAreRefused : Obligations.DefinedAccessesAnswerAndOthersAreRefused := by
  intro input s
  split
  next hdefined =>
    obtain ⟨t, hnext, -⟩ := perform_of_defined hdefined s
    exact ⟨t, hnext⟩
  next hnot => exact perform_of_not_defined (Bool.eq_false_iff.2 hnot) s

theorem hostEffect_of_perform {input : Input} {s t : State} (h : perform input s = .next t) : HostEffect s t := by
  cases hdefined : input.defined with
  | true =>
    obtain ⟨u, hnext, heffect⟩ := perform_of_defined hdefined s
    rw [hnext] at h
    cases h
    exact heffect
  | false =>
    obtain ⟨why, hrefused⟩ := perform_of_not_defined hdefined s
    rw [hrefused] at h
    cases h

/-! ### One step (R65) -/

theorem step_of_idle {s : State} (h : s.inputs = []) : step s = .next s := by
  rw [step, h]

theorem step_of_input {s : State} {input : Input} {rest : List Input} (h : s.inputs = input :: rest) :
    step s = perform input { s with inputs := rest } := by
  rw [step, h]

/-- Everything a step can do: hold the state, or have the effect of the oldest input. -/
theorem step_cases {s t : State} (h : step s = .next t) : t = s ∨ ∃ rest, HostEffect { s with inputs := rest } t := by
  cases hinputs : s.inputs with
  | nil =>
    rw [step_of_idle hinputs] at h
    cases h
    exact .inl rfl
  | cons input rest =>
    rw [step_of_input hinputs] at h
    exact .inr ⟨rest, hostEffect_of_perform h⟩

theorem statusBusy_and_not_one (st : Word) : statusBusy (st &&& ~~~1#32) = false := by
  simp [statusBusy]

/-- Settles O1: the oldest input is the write of the word, which issues it; acceptance keeps ESTK and CODE. -/
theorem stepRunsTheDecodedCommand : Obligations.StepRunsTheDecodedCommand := by
  refine ⟨fun s => step_of_idle, fun s input rest => step_of_input, fun s w rest i hinputs hidle hw => ?issued,
    fun s w i hw => ?fetched, fun s w => ⟨rfl, ?_, ?_, ?_, ?_⟩⟩
  case issued => rw [step_write_cmd hinputs hidle, issue_of_decode_ok hw]
  case fetched =>
    have hword : BitVec.ofNat 32 (w.toNat % 2 ^ 32) = w := by
      rw [Nat.mod_eq_of_lt w.isLt, BitVec.ofNat_toNat, BitVec.setWidth_eq]
    have hinputs : (s.withFetchWord 32 w.toNat).inputs = .write 0x00 4 w :: s.inputs := by
      rw [State.withFetchWord, hword]
    rw [step_write_cmd hinputs (statusBusy_and_not_one s.status), issue_of_decode_ok hw]
    rfl
  all_goals simp [acceptedStatus]

end Sys2Proof.Machine
end

section
/-! SUPPORT. The two invariants of the registers: every buffer within BMAX with STATUS legal (10_state.md R23, R30), and
every point on the curve (R26). A reset establishes them, and every effect of a step keeps them. -/

namespace Sys2Proof.Machine

/-! ### STATUS of an idle engine (R30) -/

theorem statusIdle_mkStatus (done estk : Bool) {code : BitVec 4} (h : code.toNat ≤ 7) :
    StatusIdle (mkStatus false done estk code) :=
  ⟨statusBusy_mkStatus .., shownStatus_mkStatus .., by rwa [statusCode_mkStatus]⟩

theorem statusIdle_complete (s : State) : StatusIdle (complete s).status := by
  rw [complete_status, completedStatus_ok]
  exact statusIdle_mkStatus _ _ (by decide)

theorem statusIdle_raise (e : Err) (s : State) : StatusIdle (raise e s).status := by
  obtain ⟨-, hcode⟩ := errCode_range e
  rw [raise_status, completedStatus_err]
  exact statusIdle_mkStatus _ _ hcode

theorem statusIdle_acknowledge {s : State} (v : Word) (h : StatusIdle s.status) :
    StatusIdle (acknowledge v s).status := by
  obtain ⟨hbusy, -, hcode⟩ := h
  rw [acknowledge_status, clearedStatus, hbusy]
  exact statusIdle_mkStatus _ _ hcode

/-! ### A command keeps the invariants -/

theorem roomy_of_tidy {s : State} (hwf : Memory.wf s.params.bmax s.b = true) (hparams : ParamsOk s.params) :
    Roomy s := by
  obtain ⟨hbmax, -⟩ := hparams
  exact ⟨(memory_wf_iff s _).1 hwf, hbmax⟩

section
variable {i : Instr} {s t : State} {w : Word}

theorem Effect.readB_length_le (h : Effect i s t) (hroomy : Roomy s) (j : Idx8) :
    (t.readB j).length ≤ s.params.bmax := by
  have hbuffers := hroomy.1 j
  cases h with
  | buffer _ hfits =>
    rw [State.readB_writeB]
    split
    · exact hfits hroomy
    · exact hbuffers
  | lanes | integer | field | scalar | point | scalarAndPoint => simpa using hbuffers

theorem Effect.pointsOnCurve (h : Effect i s t) (hpoints : PointsOnCurve s) : PointsOnCurve t := by
  obtain ⟨hp, hg⟩ := hpoints
  cases h with
  | point _ hcurve =>
    refine ⟨fun j => ?_, hg⟩
    rw [State.readP_writeP]
    split
    · exact hcurve ⟨hp, hg⟩
    · exact hp j
  | scalarAndPoint _ _ hcurve =>
    refine ⟨fun j => ?_, hg⟩
    rw [State.readP_writeP]
    split
    · exact hcurve ⟨hp, hg⟩
    · exact hp j
  | lanes | buffer | integer | field | scalar => exact ⟨hp, hg⟩

/-- After a command STATUS is legal whatever it was, so only the buffers and the parameters are asked of the state
before. -/
theorem exec_tidy (h : exec i s = .next t) (hwf : Memory.wf s.params.bmax s.b = true) (hparams : ParamsOk s.params) :
    Tidy t := by
  have hsame := (exec_keepsHostPort h).params
  have hroomy := roomy_of_tidy hwf hparams
  rw [Tidy, hsame, memory_wf_iff]
  obtain ⟨u, heffect, hexec⟩ | ⟨e, -, hexec⟩ := exec_cases i s <;> rw [hexec] at h <;> cases h
  · exact ⟨fun j => by simpa using heffect.readB_length_le hroomy j, statusIdle_complete _, hparams⟩
  · exact ⟨fun j => by simpa using hroomy.1 j, statusIdle_raise e _, hparams⟩

theorem exec_pointsOnCurve (h : exec i s = .next t) (hpoints : PointsOnCurve s) : PointsOnCurve t := by
  have hsame := (exec_keepsHostPort h).params
  obtain ⟨hp, hg⟩ := hpoints
  rw [PointsOnCurve, hsame]
  obtain ⟨u, heffect, hexec⟩ | ⟨e, -, hexec⟩ := exec_cases i s <;> rw [hexec] at h <;> cases h
  · obtain ⟨hu, -⟩ := heffect.pointsOnCurve ⟨hp, hg⟩
    exact ⟨fun j => by simpa using hu j, hg⟩
  · exact ⟨fun j => by simpa using hp j, hg⟩

theorem issue_tidy (h : issue w s = .next t) (htidy : Tidy s) : Tidy t := by
  obtain ⟨hwf, -, hparams⟩ := htidy
  cases hw : decode w with
  | ok i =>
    rw [issue_of_decode_ok hw] at h
    exact exec_tidy h hwf hparams
  | error why =>
    rw [issue_of_decode_error hw] at h
    cases h
    exact ⟨hwf, statusIdle_raise _ _, hparams⟩

theorem issue_pointsOnCurve (h : issue w s = .next t) (hpoints : PointsOnCurve s) : PointsOnCurve t := by
  cases hw : decode w with
  | ok i =>
    rw [issue_of_decode_ok hw] at h
    exact exec_pointsOnCurve h hpoints
  | error why =>
    rw [issue_of_decode_error hw] at h
    cases h
    exact hpoints

/-! ### A reset establishes them, and a step keeps them -/

theorem statusIdle_zero : StatusIdle 0 := by
  refine ⟨?_, ?_, ?_⟩ <;> decide

theorem applyReset_params (s : State) : (applyReset s).params = s.params := rfl

theorem applyReset_tidy (hparams : ParamsOk s.params) : Tidy (applyReset s) :=
  ⟨memory_wf_resetWith s.params, statusIdle_zero, hparams⟩

theorem applyReset_pointsOnCurve (hg : onCurve s.params.g = true) : PointsOnCurve (applyReset s) :=
  ⟨fun j => by rw [readP_applyReset]; exact onCurve_neutral, hg⟩

/-- A write of BLEN changes a buffer and BPTR alone, and so does a write of BDATA. -/
theorem writeLen_eq (v : Word) (s : State) :
    writeLen v s = { s with b := (writeLen v s).b, bptr := (writeLen v s).bptr } := by
  simp only [writeLen]
  split <;> rfl

theorem writeData_eq (v : Word) (s : State) :
    writeData v s = { s with b := (writeData v s).b, bptr := (writeData v s).bptr } := by
  simp only [writeData]
  split
  next => rfl
  next => split <;> rfl

theorem HostEffect.tidy (h : HostEffect s t) (htidy : Tidy s) : Tidy t ∧ t.params = s.params := by
  obtain ⟨hwf, hidle, hparams⟩ := htidy
  cases h with
  | reset => exact ⟨applyReset_tidy hparams, rfl⟩
  | issued hissue => exact ⟨issue_tidy hissue ⟨hwf, hidle, hparams⟩, (issue_keepsHostPort hissue).params⟩
  | acknowledged v => exact ⟨⟨hwf, statusIdle_acknowledge v hidle, hparams⟩, rfl⟩
  | resized v =>
    rw [writeLen_eq]
    exact ⟨⟨memory_wf_writeLen v hwf, hidle, hparams⟩, rfl⟩
  | stored v =>
    rw [writeData_eq]
    exact ⟨⟨memory_wf_writeData v hwf, hidle, hparams⟩, rfl⟩
  | read | ignored | window | integer => exact ⟨⟨hwf, hidle, hparams⟩, rfl⟩

theorem HostEffect.pointsOnCurve (h : HostEffect s t) (hpoints : PointsOnCurve s) : PointsOnCurve t := by
  obtain ⟨hp, hg⟩ := hpoints
  cases h with
  | reset => exact applyReset_pointsOnCurve hg
  | issued hissue => exact issue_pointsOnCurve hissue ⟨hp, hg⟩
  | resized v =>
    rw [writeLen_eq]
    exact ⟨hp, hg⟩
  | stored v =>
    rw [writeData_eq]
    exact ⟨hp, hg⟩
  | read | ignored | window | integer | acknowledged => exact ⟨hp, hg⟩

end

/-- Settles O8: by what a step can do. -/
theorem stepKeepsTidy : Obligations.StepKeepsTidy := by
  intro s t htidy hstep
  obtain rfl | ⟨rest, heffect⟩ := step_cases hstep
  · exact ⟨htidy, rfl⟩
  · exact heffect.tidy (s := { s with inputs := rest }) htidy

/-- Settles O9: by what a step can do; the points that commands compute are on the curve by the completeness of the
addition law. -/
theorem stepKeepsPointsOnCurve : Obligations.StepKeepsPointsOnCurve := by
  intro s t hpoints hstep
  obtain rfl | ⟨rest, heffect⟩ := step_cases hstep
  · exact hpoints
  · exact heffect.pointsOnCurve (s := { s with inputs := rest }) hpoints

theorem paramsOk_default : ParamsOk Config.defaultParams := by
  refine ⟨?_, ?_, ?_, ?_, ?_⟩ <;> decide +kernel

theorem onCurve_of_paramsOk {prm : Config.Params} (h : ParamsOk prm) : onCurve prm.g = true := by
  obtain ⟨-, -, -, -, hg⟩ := h
  exact hg

/-- Settles O7: the default parameters are in their ranges, and a reset keeps the parameters. -/
theorem resetStateMeetsTheInvariants : Obligations.ResetStateMeetsTheInvariants := by
  refine ⟨applyReset_tidy (s := State.reset) paramsOk_default,
    applyReset_pointsOnCurve (s := State.reset) (onCurve_of_paramsOk paramsOk_default),
    fun s t h => ?params, fun s t h hparams => ?invariants⟩
  case params => rw [perform_reset_iff.1 h, applyReset_params]
  case invariants =>
    rw [perform_reset_iff.1 h]
    exact ⟨applyReset_tidy hparams, applyReset_pointsOnCurve (onCurve_of_paramsOk hparams)⟩

end Sys2Proof.Machine
end

section
/-! SUPPORT. The registers of the host map outside the buffer window (20_memory.md R56, R61, R62), while BUSY = 0 and
while BUSY = 1 (70_reset_and_hazards.md R293). -/

namespace Sys2Proof.Machine

/-! ### The N window and the reserved offsets (R61, R62) -/

theorem hostReg_low (i : Idx8) : hostReg (0x40 + 8 * i.val) = .nLow i := by
  revert i; decide

theorem hostReg_high (i : Idx8) : hostReg (0x44 + 8 * i.val) = .nHigh i := by
  revert i; decide

theorem hostReg_reserved {off : Nat} (hlow : 0x1C ≤ off) (hhigh : off < 0x40) : hostReg off = .reserved := by
  unfold hostReg
  simp (disch := omega) only [if_neg, if_pos]

/-- Above the registers of the buffer window and BMAXR there are the reserved offsets and the N window. -/
theorem hostReg_above {off : Nat} (h : 0x1C ≤ off) :
    hostReg off = .reserved ∨ (∃ i, hostReg off = .nLow i) ∨ ∃ i, hostReg off = .nHigh i := by
  by_cases hreserved : off < 0x40
  · exact .inl (hostReg_reserved h hreserved)
  · unfold hostReg
    simp (disch := omega) only [if_neg]
    split
    next => exact .inr (.inl ⟨_, rfl⟩)
    next => exact .inr (.inr ⟨_, rfl⟩)

/-! ### While BUSY = 1 (70_reset_and_hazards.md R293) -/

section
variable {s : State} {off : Nat}

/-- A read that leaves the state shows its value to the host and does nothing else. -/
theorem perform_read_eq {v : Word} (hoff : off < 0x80) (haligned : off % 4 = 0) (h : readReg (hostReg off) s = (v, s)) :
    perform (.read off 4) s = .next { s with replies := s.replies ++ [v] } :=
  perform_read_of_defined hoff haligned h

/-- BMAXR shows a BMAX that fits in a word. -/
theorem perform_read_bmaxr (h : s.params.bmax < 2 ^ 31) : ∃ b : Word, b.toNat = s.params.bmax ∧
    perform (.read 0x18 4) s = .next { s with replies := s.replies ++ [b] } :=
  ⟨BitVec.ofNat 32 s.params.bmax, toNat_ofNat_of_lt (by omega), perform_read_eq (by decide) rfl rfl⟩

variable (hbusy : statusBusy s.status = true)
include hbusy

theorem writeReg_busy (reg : HostReg) (v : Word) : writeReg reg v s = .next s := by
  simp [writeReg, hbusy]

theorem readReg_busy_state (reg : HostReg) : (readReg reg s).2 = s := by
  cases reg with
  | bdata => simp [readReg, hbusy]
  | _ => rfl

theorem readReg_busy_above (h : 0x1C ≤ off) : readReg (hostReg off) s = (0, s) := by
  obtain hreg | ⟨i, hreg⟩ | ⟨i, hreg⟩ := hostReg_above h
  · rw [hreg, readReg]
  · simp [hreg, readReg, hbusy]
  · simp [hreg, readReg, hbusy]

/-- BLEN, BDATA, the reserved offsets and the N window. -/
theorem readReg_busy_hidden (h : off = 0x10 ∨ off = 0x14 ∨ 0x1C ≤ off) : readReg (hostReg off) s = (0, s) := by
  obtain rfl | rfl | h := h
  · simp [hostReg, readReg, hbusy]
  · simp [hostReg, readReg, hbusy]
  · exact readReg_busy_above hbusy h

end

/-- Settles O59: writes are ignored, no read has an effect, and four kinds of registers are hidden. -/
theorem busyEngineIgnoresTheHost : Obligations.BusyEngineIgnoresTheHost := by
  intro s hbusy
  refine ⟨fun off v hoff haligned => ?writes, fun off hoff haligned => ?reads, fun off hhidden => ?hidden,
    perform_read_eq (by decide) rfl rfl, perform_read_eq (by decide) rfl rfl, perform_read_bsel, perform_read_bptr,
    perform_read_bmaxr⟩
  case writes => rw [perform_write_of_defined hoff haligned, writeReg_busy hbusy]
  case reads => exact ⟨_, perform_read_eq hoff haligned (Prod.ext rfl (readReg_busy_state hbusy _))⟩
  case hidden => exact perform_read_eq (by omega) (by omega) (readReg_busy_hidden hbusy (by omega))

/-! ### While BUSY = 0 -/

/-- The low half of a register replaced. -/
theorem toNat_append_low (n : BitVec 64) (v : Word) :
    (n.extractLsb' 32 32 ++ v).toNat = n.toNat / 2 ^ 32 * 2 ^ 32 + v.toNat := by
  have hn := n.isLt
  have hv := v.isLt
  rw [BitVec.toNat_append, ← Nat.shiftLeft_add_eq_or_of_lt hv, BitVec.extractLsb'_toNat, Nat.shiftLeft_eq,
    Nat.shiftRight_eq_div_pow, Nat.mod_eq_of_lt (by omega)]

/-- The high half of a register replaced. -/
theorem toNat_append_high (n : BitVec 64) (v : Word) :
    (v ++ n.extractLsb' 0 32).toNat = v.toNat * 2 ^ 32 + n.toNat % 2 ^ 32 := by
  rw [BitVec.toNat_append, ← Nat.shiftLeft_add_eq_or_of_lt (BitVec.isLt _), BitVec.extractLsb'_toNat,
    Nat.shiftLeft_eq, Nat.shiftRight_zero]

section
variable {s : State} (v : Word) (hidle : statusBusy s.status = false)
include hidle

theorem perform_write_status : perform (.write 0x04 4 v) s = .next (acknowledge v s) := by
  rw [perform_write_of_defined (by decide) rfl]
  simp [writeReg, hidle, hostReg]

theorem perform_write_bmaxr : perform (.write 0x18 4 v) s = .next s := by
  rw [perform_write_of_defined (by decide) rfl]
  simp [writeReg, hidle, hostReg]

theorem perform_write_low (i : Idx8) :
    perform (.write (0x40 + 8 * i.val) 4 v) s = .next (s.writeN i ((s.readN i).extractLsb' 32 32 ++ v)) := by
  rw [perform_write_of_defined (by omega) (by omega), hostReg_low]
  simp [writeReg, hidle]

theorem perform_write_high (i : Idx8) :
    perform (.write (0x44 + 8 * i.val) 4 v) s = .next (s.writeN i (v ++ (s.readN i).extractLsb' 0 32)) := by
  rw [perform_write_of_defined (by omega) (by omega), hostReg_high]
  simp [writeReg, hidle]

theorem readReg_low (i : Idx8) :
    readReg (hostReg (0x40 + 8 * i.val)) s = ((s.readN i).extractLsb' 0 32, s) := by
  simp [hostReg_low, readReg, hidle]

theorem readReg_high (i : Idx8) :
    readReg (hostReg (0x44 + 8 * i.val)) s = ((s.readN i).extractLsb' 32 32, s) := by
  simp [hostReg_high, readReg, hidle]

end

/-- What a write of one register of the N window leaves. -/
theorem writeN_frame (s : State) (i : Idx8) (v : BitVec 64) : s.writeN i v = { s with n := (s.writeN i v).n } ∧
    (s.writeN i v).readN i = v ∧ ∀ j, j ≠ i → (s.writeN i v).readN j = s.readN j :=
  ⟨rfl, by simp, fun j hj => by simp [hj]⟩

theorem accessRefusal_outside {off : Nat} (size : Nat) (h : 0x80 ≤ off) :
    accessRefusal off size = some .outsideEngine :=
  if_pos h

/-- Settles O58: each register by its own rule. -/
theorem plainHostRegistersFollowTheirRules : Obligations.PlainHostRegistersFollowTheirRules := by
  intro s v hidle
  refine ⟨perform_read_eq (by decide) rfl rfl, fun hshown => perform_read_eq (by decide) rfl ?status,
    ⟨_, perform_write_status v hidle, rfl, ?done, ?estk, ?busy, ?code, ?shown⟩, perform_read_bmaxr,
    perform_write_bmaxr v hidle, fun i => ⟨perform_read_eq (by omega) (by omega) (readReg_low hidle i),
      perform_read_eq (by omega) (by omega) (readReg_high hidle i), ⟨_, perform_write_low v hidle i, ?low⟩,
      ⟨_, perform_write_high v hidle i, ?high⟩⟩,
    fun off hlow hhigh haligned => ⟨perform_read_eq (by omega) haligned ?reserved, ?ignored⟩,
    fun off size houtside => ⟨perform_read_of_refusal (accessRefusal_outside size houtside) s,
      perform_write_of_refusal (accessRefusal_outside size houtside) v s⟩⟩
  case status => exact congrArg (·, s) hshown
  case low =>
    obtain ⟨hframe, hvalue, hothers⟩ := writeN_frame s i ((s.readN i).extractLsb' 32 32 ++ v)
    exact ⟨hframe, by rw [hvalue, toNat_append_low], hothers⟩
  case high =>
    obtain ⟨hframe, hvalue, hothers⟩ := writeN_frame s i (v ++ (s.readN i).extractLsb' 0 32)
    exact ⟨hframe, by rw [hvalue, toNat_append_high], hothers⟩
  case reserved => rw [hostReg_reserved hlow hhigh, readReg]
  case ignored =>
    rw [perform_write_of_defined (by omega) haligned, hostReg_reserved hlow hhigh]
    simp [writeReg]
  all_goals simp [clearedStatus, hidle]

end Sys2Proof.Machine
end

section
/-! SUPPORT. The host procedures (20_memory.md R68): HostLoad and HostStore by induction over the bytes, HostSetN and
HostGetN by the two halves of a register, HostIssue by the completion of the command. -/

namespace Sys2Proof.Machine

theorem performAll_cons {input : Input} {s t : State} (h : perform input s = .next t) (rest : List Input) :
    performAll (input :: rest) s = performAll rest t := by
  rw [performAll, h]

/-- The word that HostLoad and HostStore write to BSEL selects their buffer. -/
theorem toFin_extractLsb'_ofNat (i : Idx8) : ((BitVec.ofNat 32 i.val).extractLsb' 0 3).toFin = i := by
  revert i; decide

/-- The byte that HostLoad writes to BDATA is the one stored, and the one HostStore reads is the one it returns. -/
theorem extractLsb'_setWidth_byte (byte : Byte) : ((byte.setWidth 32 : Word)).extractLsb' 0 8 = byte := by
  revert byte; decide

theorem toNat_add_one_of_lt {q : Word} (h : q.toNat < 2 ^ 31) : (q + 1).toNat = q.toNat + 1 := by
  have hone : (1 : Word).toNat = 1 := rfl
  rw [BitVec.toNat_add, hone]
  omega

/-! ### HostLoad -/

/-- The buffers other than i, and every register but BSEL and BPTR, are as before. -/
def LoadedInto (i : Idx8) (s t : State) : Prop :=
  (∀ j, j ≠ i → t.readB j = s.readB j) ∧ t = { s with b := t.b, bsel := t.bsel, bptr := t.bptr }

theorem LoadedInto.trans {i : Idx8} {s t u : State} (hst : LoadedInto i s t) (htu : LoadedInto i t u) :
    LoadedInto i s u := by
  obtain ⟨hb, ht⟩ := hst
  obtain ⟨hb', hu⟩ := htu
  refine ⟨fun j hj => (hb' j hj).trans (hb j hj), ?_⟩
  rw [hu, ht]

theorem LoadedInto.status_eq {i : Idx8} {s t : State} (h : LoadedInto i s t) : t.status = s.status := by
  obtain ⟨-, ht⟩ := h
  rw [ht]

theorem LoadedInto.params_eq {i : Idx8} {s t : State} (h : LoadedInto i s t) : t.params = s.params := by
  obtain ⟨-, ht⟩ := h
  rw [ht]

/-- Writing a string to BDATA at the end of the selected buffer appends it. -/
theorem performAll_bdata {i : Idx8} (x : Bytes) {s : State} (hidle : statusBusy s.status = false)
    (hbmax : s.params.bmax < 2 ^ 31) (hselected : selected s = i) (hend : s.bptr.toNat = (s.readB i).length)
    (hroom : (s.readB i).length + x.length ≤ s.params.bmax) :
    ∃ t, performAll (x.map fun byte => .write 0x14 4 (byte.setWidth 32)) s = .next t ∧
      t.readB i = s.readB i ++ x ∧ LoadedInto i s t := by
  induction x generalizing s with
  | nil => exact ⟨s, rfl, (List.append_nil _).symm, fun j _ => rfl, rfl⟩
  | cons byte x ih =>
    subst hselected
    rw [List.length_cons] at hroom
    have hfirst := perform_write_bdata (byte.setWidth 32) hidle
    obtain ⟨hframe, hothers, happended⟩ := writeData_appends (v := byte.setWidth 32) hend (by omega)
    rw [extractLsb'_setWidth_byte] at happended
    generalize writeData (byte.setWidth 32) s = u at hfirst hframe hothers happended
    have hselected : selected u = selected s := by rw [hframe]; rfl
    have hidle' : statusBusy u.status = false := by rw [hframe]; exact hidle
    have hparams : u.params = s.params := by rw [hframe]
    have hend' : u.bptr.toNat = (u.readB (selected s)).length := by
      rw [happended, List.length_append, ← hend, hframe]
      exact toNat_add_one_of_lt (by omega)
    obtain ⟨t, hrest, hloaded, hframe'⟩ := ih hidle' (hparams ▸ hbmax) hselected hend' (by
      rw [happended, hparams, List.length_append, List.length_singleton]
      omega)
    refine ⟨t, (performAll_cons hfirst _).trans hrest, ?_, LoadedInto.trans ⟨hothers, ?_⟩ hframe'⟩
    · rw [hloaded, happended, List.append_assoc, List.singleton_append]
    · rw [hframe]

/-- Writing 0 to BLEN empties the selected buffer. -/
theorem writeLen_zero {i : Idx8} {s : State} (hselected : selected s = i) :
    (writeLen 0 s).readB i = [] ∧ (writeLen 0 s).bptr = 0 ∧ LoadedInto i s (writeLen 0 s) := by
  subst hselected
  have hwithin : ¬ s.params.bmax < (0 : Word).toNat := Nat.not_lt_zero _
  obtain ⟨hframe, -, hlength, -⟩ := writeLen_resizes hwithin
  refine ⟨List.length_eq_zero_iff.1 hlength, by rw [hframe], fun j hj => ?_, by rw [hframe]⟩
  rw [writeLen_of_within hwithin]
  simp [hj]

/-- Buffer i selected, BPTR at its start (20_memory.md R57). -/
def State.select (s : State) (i : Idx8) : State :=
  { s with bsel := (BitVec.ofNat 32 i.val).extractLsb' 0 3, bptr := 0 }

theorem selected_select (s : State) (i : Idx8) : selected (s.select i) = i := toFin_extractLsb'_ofNat i

theorem readB_select (s : State) (i j : Idx8) : (s.select i).readB j = s.readB j := rfl

theorem loadedInto_select (s : State) (i : Idx8) : LoadedInto i s (s.select i) := ⟨fun _ _ => rfl, rfl⟩

/-- After HostLoad the buffer holds the string: it is selected, emptied, and filled. -/
theorem performAll_hostLoad (i : Idx8) (x : Bytes) {s : State} (hidle : statusBusy s.status = false)
    (hfits : x.length ≤ s.params.bmax) (hbmax : s.params.bmax < 2 ^ 31) :
    ∃ t, performAll (hostLoad i x) s = .next t ∧ t.readB i = x ∧ LoadedInto i s t := by
  have hselect : perform (.write 0x08 4 (BitVec.ofNat 32 i.val)) s = .next (s.select i) := perform_write_bsel _ hidle
  have hclear : perform (.write 0x10 4 0) (s.select i) = .next (writeLen 0 (s.select i)) := perform_write_blen 0 hidle
  obtain ⟨hempty, hstart, hcleared⟩ := writeLen_zero (selected_select s i)
  have hframe := (loadedInto_select s i).trans hcleared
  have hselected : selected (writeLen 0 (s.select i)) = i := by
    rw [writeLen_eq]
    exact selected_select s i
  generalize writeLen 0 (s.select i) = u at hclear hempty hstart hframe hselected
  obtain ⟨t, hfill, hloaded, hframe'⟩ := performAll_bdata x (hframe.status_eq ▸ hidle) (hframe.params_eq ▸ hbmax)
    hselected (by rw [hstart, hempty]; rfl)
    (by rw [hempty, hframe.params_eq, List.length_nil, Nat.zero_add]; exact hfits)
  rw [hempty, List.nil_append] at hloaded
  exact ⟨t, (performAll_cons hselect _).trans ((performAll_cons hclear _).trans hfill), hloaded, hframe.trans hframe'⟩

/-! ### HostStore -/

/-- Reading to the end of the selected buffer gives its bytes from BPTR on, and changes BPTR alone. -/
theorem readBytes_to_end (n : Nat) {s : State} (hidle : statusBusy s.status = false)
    (hlength : (s.readB (selected s)).length < 2 ^ 31) (hend : s.bptr.toNat + n = (s.readB (selected s)).length) :
    ∃ t, readBytes n s = ((s.readB (selected s)).drop s.bptr.toNat, t) ∧ t = { s with bptr := t.bptr } := by
  induction n generalizing s with
  | zero => exact ⟨s, by rw [readBytes, List.drop_eq_nil_of_le (by omega)], rfl⟩
  | succ n ih =>
    have hinside : s.bptr.toNat < (s.readB (selected s)).length := by omega
    have hfirst := (readReg_bdata hidle).trans (readData_of_inside (List.getElem?_eq_getElem hinside))
    have hnext : (s.bptr + 1).toNat = s.bptr.toNat + 1 := toNat_add_one_of_lt (by omega)
    obtain ⟨t, hrest, hframe⟩ := ih (s := { s with bptr := s.bptr + 1 }) hidle hlength (by
      show (s.bptr + 1).toNat + n = _
      rw [hnext, Nat.add_assoc, Nat.add_comm 1 n]
      exact hend)
    refine ⟨t, ?_, hframe⟩
    rw [readBytes, hfirst, List.drop_eq_getElem_cons hinside, ← hnext]
    simp only [hrest, extractLsb'_setWidth_byte]
    rfl

/-- HostStore gives the buffer's bytes: it is selected, measured, and read to its end. -/
theorem hostStore_eq (i : Idx8) {s : State} (hidle : statusBusy s.status = false)
    (hlength : (s.readB i).length < 2 ^ 31) :
    ∃ t, hostStore i s = some (s.readB i, t) ∧ t = { s with bsel := t.bsel, bptr := t.bptr } := by
  have hselect : writeReg (hostReg 0x08) (BitVec.ofNat 32 i.val) s = .next (s.select i) := by
    simp [writeReg, hidle, hostReg, writeSel, State.select]
  have hselected := selected_select s i
  have hmeasure : readReg (hostReg 0x10) (s.select i) = (BitVec.ofNat 32 (s.readB i).length, s.select i) := by
    have hidle' : statusBusy (s.select i).status = false := hidle
    simp [readReg, hidle', hostReg, hselected, readB_select]
  have hcount : (BitVec.ofNat 32 (s.readB i).length).toNat = (s.readB i).length := toNat_ofNat_of_lt (by omega)
  obtain ⟨t, hread, hframe⟩ := readBytes_to_end (s.readB i).length (s := s.select i) hidle
    (by rw [hselected]; exact hlength) (by rw [hselected]; exact Nat.zero_add _)
  rw [hselected] at hread
  refine ⟨t, ?_, by rw [hframe]; rfl⟩
  rw [hostStore, hselect]
  simp only [hmeasure, hcount, hread]
  rfl

/-! ### HostSetN and HostGetN -/

theorem writeN_writeN (s : State) (i : Idx8) (v w : BitVec 64) : (s.writeN i v).writeN i w = s.writeN i w := by
  simp [State.writeN]

/-- The two halves of a register together. -/
theorem append_halves (v : BitVec 64) : v.extractLsb' 32 32 ++ v.extractLsb' 0 32 = v := by
  apply BitVec.eq_of_toNat_eq
  have hv := v.isLt
  rw [toNat_append_low, BitVec.extractLsb'_toNat, Nat.shiftRight_zero]
  omega

/-- After the low half has been written, the low half is what it was set to. -/
theorem extractLsb'_low_append (u v : Word) : (u ++ v).extractLsb' 0 32 = v := by
  apply BitVec.eq_of_toNat_eq
  have hv := v.isLt
  rw [BitVec.extractLsb'_toNat, BitVec.toNat_append, ← Nat.shiftLeft_add_eq_or_of_lt hv, Nat.shiftRight_zero,
    Nat.shiftLeft_eq]
  omega

theorem performAll_hostSetN (i : Idx8) (v : BitVec 64) {s : State} (hidle : statusBusy s.status = false) :
    performAll (hostSetN i v) s = .next (s.writeN i v) := by
  have hlow := perform_write_low (v.extractLsb' 0 32) hidle i
  have hhigh := perform_write_high (v.extractLsb' 32 32)
    (s := s.writeN i ((s.readN i).extractLsb' 32 32 ++ v.extractLsb' 0 32)) hidle i
  rw [State.readN_writeN, if_pos rfl, extractLsb'_low_append, append_halves, writeN_writeN] at hhigh
  rw [hostSetN, performAll_cons hlow, performAll_cons hhigh, performAll]

theorem hostGetN_eq (i : Idx8) {s : State} (hidle : statusBusy s.status = false) : hostGetN i s = s.readN i := by
  rw [hostGetN, readReg_high hidle, readReg_low hidle, append_halves]

/-! ### HostIssue -/

/-- An issued word, legal or not, leaves STATUS with BUSY = 0 and DONE = 1. -/
theorem issue_completes (w : Word) (s : State) :
    ∃ t, issue w s = .next t ∧ statusBusy t.status = false ∧ statusDone t.status = true := by
  cases hw : decode w with
  | ok i =>
    obtain ⟨t, hexec, hbusy, hdone, -⟩ := everyCommandCompletesWithAListedCode i (accept w s)
    exact ⟨t, (issue_of_decode_ok hw s).trans hexec, hbusy, hdone⟩
  | error why => exact ⟨_, issue_of_decode_error hw s, by simp, by simp⟩

/-- One poll of a completed command shows its code. -/
theorem pollStatus_of_completed (polls : Nat) {t : State} (hbusy : statusBusy t.status = false)
    (hdone : statusDone t.status = true) : pollStatus (polls + 1) t = some (statusCode t.status, t) := by
  have hread : readReg (hostReg 0x04) t = (shownStatus t.status, t) := rfl
  rw [pollStatus, hread]
  simp [shownStatus, hbusy, hdone]

/-- Settles O56: one lemma for each procedure. -/
theorem hostProceduresMoveTheData : Obligations.HostProceduresMoveTheData := by
  refine ⟨fun i x s hidle hfits hbmax => performAll_hostLoad i x hidle hfits hbmax,
    fun i s hidle hlength => hostStore_eq i hidle hlength,
    fun i v s hidle => ⟨performAll_hostSetN i v hidle, hostGetN_eq i hidle⟩, fun polls w s hidle => ?issue⟩
  obtain ⟨t, hissue, hbusy, hdone⟩ := issue_completes w s
  have hwrite : writeReg (hostReg 0x00) w s = .next t := by
    rw [← hissue]
    simp [writeReg, hidle, hostReg]
  refine ⟨t, hissue, ?_⟩
  rw [hostIssue, hwrite]
  exact pollStatus_of_completed polls hbusy hdone

end Sys2Proof.Machine
end

section
/-! SUPPORT. A command from two states (10_state.md R21 to R31): where the states agree on everything the command reads,
it writes the same values and ends with the same code, so any relation that the writes keep still holds after it. -/

namespace Sys2Proof.Machine

/-- A relation of two states that writing the same value on both sides keeps, and completing and failing too. -/
structure KeptByWrites (R : State → State → Prop) : Prop where
  writeN {s t : State} (d : Idx8) (v : BitVec 64) (h : R s t) : R (s.writeN d v) (t.writeN d v)
  writeB {s t : State} (d : Idx8) (x : Bytes) (h : R s t) : R (s.writeB d x) (t.writeB d x)
  writeA {s t : State} (a : Lanes) (h : R s t) : R (s.writeA a) (t.writeA a)
  writeF {s t : State} (d : Idx8) (v : Fe) (h : R s t) : R (s.writeF d v) (t.writeF d v)
  writeP {s t : State} (d : Idx4) (q : Point) (h : R s t) : R (s.writeP d q) (t.writeP d q)
  writeK {s t : State} (d : Idx4) (v : BitVec 512) (h : R s t) : R (s.writeK d v) (t.writeK d v)
  complete {s t : State} (h : R s t) : R (complete s) (complete t)
  raise {s t : State} (e : Err) (h : R s t) : R (raise e s) (raise e t)

/-- The second state has what the command reads of the first: the buffers, the parameters, and each register file it
is listed as reading. -/
structure SameReads (i : Instr) (s t : State) : Prop where
  b : t.b = s.b
  params : t.params = s.params
  n : readsN i = true → t.n = s.n
  a : readsA i = true → t.a = s.a
  f : readsF i = true → t.f = s.f
  p : readsP i = true → t.p = s.p
  k : readsK i = true → t.k = s.k

/-- Two computations of what a command writes: both give related states, or both raise the same error. -/
inductive BothYield (R : State → State → Prop) : Except Err State → Except Err State → Prop
  | ok {s t : State} (h : R s t) : BothYield R (.ok s) (.ok t)
  | error (e : Err) : BothYield R (.error e) (.error e)

section
variable {R : State → State → Prop}

theorem bothYield_check {c : Prop} [Decidable c] {e : Err} {written written' : Except Err State}
    (h : BothYield R written written') :
    BothYield R (if c then .error e else written) (if c then .error e else written') := by
  split
  next => exact .error e
  next => exact h

theorem bothYield_map {α : Type} (result : Except Err α) {use use' : α → State} (h : ∀ x, R (use x) (use' x)) :
    BothYield R (result.map use) (result.map use') := by
  cases result with
  | ok x => exact .ok (h x)
  | error e => exact .error e

variable {i : Instr} {s t : State}

/-- What a command writes is computed from what it reads. -/
theorem exec_commits_both (hR : KeptByWrites R) (h : R s t) (hreads : SameReads i s t) :
    ∃ written written', exec i s = commitOf i written s ∧ exec i t = commitOf i written' t ∧
      BothYield R written written' := by
  obtain ⟨hb, hparams, hn, ha, hf, hp, hk⟩ := hreads
  obtain ⟨⟩ := s
  obtain ⟨⟩ := t
  cases hb
  cases hparams
  cases i with
  | ald => exact ⟨_, _, rfl, rfl, bothYield_check (.ok (hR.writeA _ h))⟩
  | fld => exact ⟨_, _, rfl, rfl, bothYield_check (.ok (hR.writeF _ _ h))⟩
  | kld => exact ⟨_, _, rfl, rfl, bothYield_check (.ok (hR.writeK _ _ h))⟩
  | lenc | renc | encstr => exact ⟨_, _, rfl, rfl, bothYield_check (.ok (hR.writeB _ _ h))⟩
  | ptdec => exact ⟨_, _, rfl, rfl, bothYield_check (bothYield_map _ fun q => hR.writeP _ q h)⟩
  | ptg => exact ⟨_, _, rfl, rfl, .ok (hR.writeP _ _ h)⟩
  | keypair => exact ⟨_, _, rfl, rfl, .ok (hR.writeP _ _ (hR.writeK _ _ h))⟩
  | encsym => exact ⟨_, _, rfl, rfl, bothYield_check (bothYield_check (.ok (hR.writeB _ _ h)))⟩
  | decpk | decsym => exact ⟨_, _, rfl, rfl, bothYield_check (bothYield_map _ fun m => hR.writeB _ m h)⟩
  | sign => exact ⟨_, _, rfl, rfl, .ok (hR.writeB _ _ h)⟩
  | substr =>
    cases hn rfl
    exact ⟨_, _, rfl, rfl, .ok (hR.writeB _ _ h)⟩
  | bytepad | shake | cshake | kmac =>
    cases hn rfl
    exact ⟨_, _, rfl, rfl, bothYield_check (bothYield_check (.ok (hR.writeB _ _ h)))⟩
  | sponge =>
    cases hn rfl
    exact ⟨_, _, rfl, rfl, bothYield_check (bothYield_check (bothYield_check (.ok (hR.writeB _ _ h))))⟩
  | ast =>
    cases ha rfl
    exact ⟨_, _, rfl, rfl, .ok (hR.writeB _ _ h)⟩
  | kp =>
    cases ha rfl
    exact ⟨_, _, rfl, rfl, .ok (hR.writeA _ h)⟩
  | fst =>
    cases hf rfl
    exact ⟨_, _, rfl, rfl, .ok (hR.writeB _ _ h)⟩
  | fadd | fsub | fmul =>
    cases hf rfl
    exact ⟨_, _, rfl, rfl, .ok (hR.writeF _ _ h)⟩
  | finv =>
    cases hf rfl
    exact ⟨_, _, rfl, rfl, bothYield_check (.ok (hR.writeF _ _ h))⟩
  | fsqrt =>
    cases hf rfl
    exact ⟨_, _, rfl, rfl, bothYield_map _ fun v => hR.writeF _ v h⟩
  | ptnew | ptfromx =>
    cases hf rfl
    exact ⟨_, _, rfl, rfl, bothYield_map _ fun q => hR.writeP _ q h⟩
  | ptadd =>
    cases hp rfl
    exact ⟨_, _, rfl, rfl, .ok (hR.writeP _ _ h)⟩
  | ptmul =>
    cases hp rfl
    cases hk rfl
    exact ⟨_, _, rfl, rfl, .ok (hR.writeP _ _ h)⟩
  | ptenc =>
    cases hp rfl
    exact ⟨_, _, rfl, rfl, .ok (hR.writeB _ _ h)⟩
  | encpk =>
    cases hp rfl
    exact ⟨_, _, rfl, rfl, bothYield_check (bothYield_check (.ok (hR.writeB _ _ h)))⟩
  | verify =>
    cases hp rfl
    exact ⟨_, _, rfl, rfl, bothYield_check (.ok (hR.writeN _ _ h))⟩
  | kst =>
    cases hk rfl
    exact ⟨_, _, rfl, rfl, .ok (hR.writeB _ _ h)⟩

theorem statusCode_complete_eq (s t : State) : statusCode (complete s).status = statusCode (complete t).status :=
  (statusCode_complete s).trans (statusCode_complete t).symm

theorem statusCode_raise_eq (e : Err) (s t : State) :
    statusCode (raise e s).status = statusCode (raise e t).status := by
  simp

/-- Both runs complete, or both fail with the same error; the states they leave are related. -/
theorem exec_both (hR : KeptByWrites R) (h : R s t) (hreads : SameReads i s t) :
    ∃ s' t', exec i s = .next s' ∧ exec i t = .next t' ∧ R s' t' ∧
      statusCode s'.status = statusCode t'.status := by
  obtain ⟨written, written', hs, ht, hboth⟩ := exec_commits_both hR h hreads
  rw [hs, ht]
  unfold commitOf
  cases classS i with
  | true =>
    cases hboth with
    | ok hwritten => exact ⟨_, _, rfl, rfl, hR.complete (hR.writeA zeroLanes hwritten), statusCode_complete_eq _ _⟩
    | error e => exact ⟨_, _, rfl, rfl, hR.raise e (hR.writeA zeroLanes h), statusCode_raise_eq e _ _⟩
  | false =>
    cases hboth with
    | ok hwritten => exact ⟨_, _, rfl, rfl, hR.complete hwritten, statusCode_complete_eq _ _⟩
    | error e => exact ⟨_, _, rfl, rfl, hR.raise e h, statusCode_raise_eq e _ _⟩

end

/-! ### What STATUS and the host port hold (R31, R34) -/

theorem sameRegisters_iff {s t : State} : SameRegisters s t ↔ ∃ cmd status bsel bptr inputs replies, t = { s with
    cmd := cmd, status := status, bsel := bsel, bptr := bptr, inputs := inputs, replies := replies } := by
  constructor
  · rintro ⟨hn, hb, ha, hf, hp, hk, hparams⟩
    obtain ⟨⟩ := t
    simp_all
  · rintro ⟨cmd, status, bsel, bptr, inputs, replies, rfl⟩
    exact ⟨rfl, rfl, rfl, rfl, rfl, rfl, rfl⟩

theorem sameRegisters_keptByWrites : KeptByWrites SameRegisters := by
  constructor
  all_goals
    intros
    rename_i h
    rw [sameRegisters_iff] at h
    obtain ⟨cmd, status, bsel, bptr, inputs, replies, rfl⟩ := h
    exact sameRegisters_iff.2 ⟨_, _, _, _, _, _, rfl⟩

/-- Settles O14: states with the same registers agree on everything any command reads. -/
theorem commandIgnoresStatusAndHostState : Obligations.CommandIgnoresStatusAndHostState := by
  intro i s t h
  obtain ⟨hn, hb, ha, hf, hp, hk, hparams⟩ := id h
  exact exec_both sameRegisters_keptByWrites h
    ⟨hb.symm, hparams.symm, fun _ => hn.symm, fun _ => ha.symm, fun _ => hf.symm, fun _ => hp.symm, fun _ => hk.symm⟩

/-! ### What a register file holds that the command does not read (R21, R24 to R27) -/

/-- The second state differs from the first in the file N alone, and so on for the other files. -/
def DifferInN (s t : State) : Prop := ∃ u, t = { s with n := u }
def DifferInA (s t : State) : Prop := ∃ u, t = { s with a := u }
def DifferInF (s t : State) : Prop := ∃ u, t = { s with f := u }
def DifferInP (s t : State) : Prop := ∃ u, t = { s with p := u }
def DifferInK (s t : State) : Prop := ∃ u, t = { s with k := u }

/-- A write on both sides, to the same file or another, keeps the difference within the file. -/
theorem differIn_keptByWrites : KeptByWrites DifferInN ∧ KeptByWrites DifferInA ∧ KeptByWrites DifferInF ∧
    KeptByWrites DifferInP ∧ KeptByWrites DifferInK := by
  refine ⟨?_, ?_, ?_, ?_, ?_⟩
  all_goals
    constructor
    all_goals
      intros
      rename_i h
      obtain ⟨u, rfl⟩ := h
      exact ⟨_, rfl⟩

/-- A command from a state that differs from s in a way that does not concern its reads leaves a state that differs in
the same way from the one it leaves from s. -/
theorem exec_related {R : State → State → Prop} (hR : KeptByWrites R) {i : Instr} {s s' t : State}
    (hexec : exec i s = .next t) (h : R s s') (hreads : SameReads i s s') : ∃ t', exec i s' = .next t' ∧ R t t' := by
  obtain ⟨u, t', hu, ht', hrelated, -⟩ := exec_both hR h hreads
  rw [hexec] at hu
  cases hu
  exact ⟨t', ht', hrelated⟩

theorem implies_of_unread {reads : Bool} {P : Prop} (hunread : reads = false) : reads = true → P :=
  fun hread => absurd hread (Bool.eq_false_iff.1 hunread)

/-- Settles O15: replacing a file that is not read is such a difference. -/
theorem registersAreReadOnlyByTheirCommands : Obligations.RegistersAreReadOnlyByTheirCommands := by
  intro i s t hexec
  obtain ⟨hN, hA, hF, hP, hK⟩ := differIn_keptByWrites
  refine ⟨fun v hunread => ?n, fun v hunread => ?a, fun v hunread => ?f, fun v hunread => ?p, fun v hunread => ?k⟩
  case n =>
    obtain ⟨_, hnext, u, rfl⟩ := exec_related hN hexec ⟨v, rfl⟩
      ⟨rfl, rfl, implies_of_unread hunread, fun _ => rfl, fun _ => rfl, fun _ => rfl, fun _ => rfl⟩
    exact ⟨u, hnext⟩
  case a =>
    obtain ⟨_, hnext, u, rfl⟩ := exec_related hA hexec ⟨v, rfl⟩
      ⟨rfl, rfl, fun _ => rfl, implies_of_unread hunread, fun _ => rfl, fun _ => rfl, fun _ => rfl⟩
    exact ⟨u, hnext⟩
  case f =>
    obtain ⟨_, hnext, u, rfl⟩ := exec_related hF hexec ⟨v, rfl⟩
      ⟨rfl, rfl, fun _ => rfl, fun _ => rfl, implies_of_unread hunread, fun _ => rfl, fun _ => rfl⟩
    exact ⟨u, hnext⟩
  case p =>
    obtain ⟨_, hnext, u, rfl⟩ := exec_related hP hexec ⟨v, rfl⟩
      ⟨rfl, rfl, fun _ => rfl, fun _ => rfl, fun _ => rfl, implies_of_unread hunread, fun _ => rfl⟩
    exact ⟨u, hnext⟩
  case k =>
    obtain ⟨_, hnext, u, rfl⟩ := exec_related hK hexec ⟨v, rfl⟩
      ⟨rfl, rfl, fun _ => rfl, fun _ => rfl, fun _ => rfl, fun _ => rfl, implies_of_unread hunread⟩
    exact ⟨u, hnext⟩

end Sys2Proof.Machine
end

section
/-! SUPPORT. How the sponge functions and their commands compare (42_sponge.md R141 to R146, 43_kmac.md R160):
outputs of different lengths agree where both have bytes, and commands agree where their functions and outputs do. -/

namespace Sys2Proof.Machine

/-! ### A shorter output (R141) -/

section
variable {short long : Nat}

theorem sponge_eq_take (h : short ≤ long) (m : Bytes) (sfx : Byte) :
    sponge m sfx short = (sponge m sfx long).take (short / 8) := by
  have hbytes : short / 8 ≤ long / 8 := Nat.div_le_div_right h
  refine List.ext_getElem? fun n => ?_
  rcases lt_or_ge n (short / 8) with hn | hn
  · rw [List.getElem?_take_of_lt hn, getElem?_sponge m sfx hn, getElem?_sponge m sfx (hn.trans_le hbytes)]
  · rw [List.getElem?_eq_none, List.getElem?_eq_none]
    · simp [hn]
    · rwa [sponge_length]

theorem cshake256_eq_take (h : short ≤ long) (m name custom : Bytes) :
    cshake256 m short name custom = (cshake256 m long name custom).take (short / 8) := by
  unfold cshake256
  split
  next => exact sponge_eq_take h m shakeSuffix
  next => exact sponge_eq_take h _ cshakeSuffix

end

/-- Settles O26: all three functions are the sponge of a string that does not depend on the output's length. -/
theorem shorterSpongeOutputIsAPrefix : Obligations.ShorterSpongeOutputIsAPrefix := fun _ _ _ _ hle =>
  ⟨sponge_eq_take hle, cshake256_eq_take hle, fun _ _ custom => cshake256_eq_take hle _ kmacName custom⟩

/-! ### Commands that write the same output (R142 to R144, R161) -/

theorem exec_sponge_shake_suffix {c : Idx8} {s : State} (hc : (s.readN c).toNat = 0x1F) (d a b : Idx8) :
    exec (.sponge d a b c) s = exec (.shake d a b) s := by
  have hsuffix : (s.readN c).setWidth 8 = 0x1F := by
    rw [← BitVec.ofNat_toNat, hc]
    rfl
  rw [exec_sponge_of_suffix d a b c (by omega), exec_shake, hsuffix]

theorem exec_cshake_empty {c e : Idx8} {s : State} (hc : s.readB c = []) (he : s.readB e = []) (d a b : Idx8) :
    exec (.cshake d a b c e) s = exec (.shake d a b) s := by
  rw [exec_cshake, exec_shake, hc, he]
  rfl

theorem commitS_error_agrees {s t u : State} {d : Idx8} {e : Err} (hstatus : u.status = s.status)
    (hs : commitS (.error e) s = .next t) :
    ∃ v, commitS (.error e) u = .next v ∧ v.a = t.a ∧ v.status = t.status ∧
      (statusCode t.status = okCode → v.readB d = t.readB d) := by
  rw [commitS_error, Host.Outcome.next.injEq] at hs
  subst hs
  exact ⟨_, commitS_error e u, rfl, by simp [hstatus], fun hcode => absurd hcode (by simp [okCode])⟩

/-- From states with the same STATUS and BMAX, the same output leaves the same A and STATUS, and the same bytes where
the command completes. -/
theorem commitS_writeOutput_agrees {s t u : State} {d : Idx8} {bits : Nat} {y : Bytes} (hparams : u.params = s.params)
    (hstatus : u.status = s.status) (hs : commitS (writeOutput d bits y s) s = .next t) :
    ∃ v, commitS (writeOutput d bits y u) u = .next v ∧ v.a = t.a ∧ v.status = t.status ∧
      (statusCode t.status = okCode → v.readB d = t.readB d) := by
  by_cases hbits : bits % 8 = 0
  · by_cases hfits : s.params.bmax < bits / 8
    · rw [writeOutput_of_above (not_not.2 hbits) hfits] at hs
      rw [writeOutput_of_above (not_not.2 hbits) (by rwa [hparams])]
      exact commitS_error_agrees hstatus hs
    · rw [writeOutput_of_fits (not_not.2 hbits) hfits] at hs
      rw [writeOutput_of_fits (not_not.2 hbits) (by rwa [hparams])]
      rw [commitS_ok, Host.Outcome.next.injEq] at hs
      subst hs
      exact ⟨_, commitS_ok .., rfl, by simp [hstatus], fun _ => by simp⟩
  · rw [writeOutput_of_not_bytes hbits] at hs ⊢
    exact commitS_error_agrees hstatus hs

/-- The prepared strings make CSHAKE's function the one KMAC computes (R160). -/
theorem cshake256_kmacName (key data : Bytes) (bits : Nat) (custom : Bytes) :
    cshake256 (bytepad (encodeString key) 136 ++ data ++ [0x00, 0x01]) bits [0x4B, 0x4D, 0x41, 0x43] custom =
      kmacxof256 key data bits custom := by
  rw [← rightEncode_zero]
  rfl

theorem exec_cshake_eq_cshake256 (d a b c e : Idx8) (s : State) : exec (.cshake d a b c e) s =
    commitS (writeOutput d (s.readN b).toNat (cshake256 (s.readB a) (s.readN b).toNat (s.readB c) (s.readB e)) s) s :=
  rfl

/-- Settles O30. -/
theorem spongeCommandsAgree : Obligations.SpongeCommandsAgree := by
  refine ⟨fun d a b c s hc => exec_sponge_shake_suffix hc d a b,
    fun d a b c e s hc he => exec_cshake_empty hc he d a b, ?_⟩
  intro d a b c e s t u m name hkmac hu hname hm he
  have hreadM : u.readB m = bytepad (encodeString (s.readB a)) 136 ++ s.readB b ++ [0x00, 0x01] := by
    simp [← hu, hname]
  have hreadName : u.readB name = [0x4B, 0x4D, 0x41, 0x43] := by
    simp [← hu]
  have hreadE : u.readB e = s.readB e := by
    simp [← hu, hm.symm, he.symm]
  have hreadN : u.readN c = s.readN c := by
    simp [← hu]
  rw [exec_cshake_eq_cshake256, hreadM, hreadName, hreadE, hreadN, cshake256_kmacName]
  rw [exec_kmac] at hkmac
  exact commitS_writeOutput_agrees (by simp [← hu]) (by simp [← hu]) hkmac

end Sys2Proof.Machine
end

section
/-! SUPPORT. A store and then a load of the buffer it wrote (41_keccak.md R127, R128; 44_field.md R173 to R176;
45_point.md R208 to R210). -/

namespace Sys2Proof.Machine

/-! ### The bytes of the lanes give the lanes back (20_memory.md R53) -/

theorem lane_eq_of_bytes {v w : Lane} (h : ∀ j : Fin 8, v.extractLsb' (8 * j.val) 8 = w.extractLsb' (8 * j.val) 8) :
    v = w := by
  refine BitVec.eq_of_getLsbD_eq fun i hi => ?_
  have hbyte := congrArg (·.getLsbD (i % 8)) (h ⟨i / 8, by omega⟩)
  simpa [BitVec.getLsbD_extractLsb', Nat.mod_lt i, Nat.div_add_mod] using hbyte

theorem lanesOfBytes_bytesOfLanes (a : Lanes) : lanesOfBytes (bytesOfLanes a) = a := by
  refine Vector.ext fun i hi => lane_eq_of_bytes fun j => ?_
  have hloaded := lanesOfBytes_extract (bytesOfLanes_length a) ⟨i, hi⟩ j
  rw [getElem?_bytesOfLanes a ⟨i, hi⟩ j] at hloaded
  exact (Option.some.inj hloaded).symm

/-! ### The buffer a store leaves -/

theorem readB_of_exec_eq_commit_writeB {i : Instr} {d : Idx8} {x : Bytes} {s t : State}
    (hexec : exec i s = commit (.ok (s.writeB d x)) s) (h : exec i s = .next t) : t.readB d = x := by
  rw [hexec, commit_ok, Host.Outcome.next.injEq] at h
  subst h
  simp

section
variable {y : Idx8} {s t : State}

theorem ast_ald (hstore : exec (.ast y) s = .next t) :
    ∃ u, exec (.ald y) t = .next u ∧ CompletedOk t u ∧ u.a = s.a := by
  have hbytes := readB_of_exec_eq_commit_writeB (exec_ast y s) hstore
  have hload := exec_ald_of_length_eq (by rw [hbytes, bytesOfLanes_length])
  rw [hbytes, lanesOfBytes_bytesOfLanes] at hload
  exact ⟨_, hload, complete_completedOk rfl, rfl⟩

theorem fst_fld (x z : Idx8) (hstore : exec (.fst y z) s = .next t) :
    ∃ u, exec (.fld x y) t = .next u ∧ CompletedOk t u ∧ u.readF x = s.readF z := by
  have hbytes := readB_of_exec_eq_commit_writeB (exec_fst y z s) hstore
  have hload := exec_fld_of_length_eq x y (by rw [hbytes]; exact i2osp_length ..)
  rw [hbytes, os2ip_i2osp_fe, ofNat_val_self] at hload
  exact ⟨_, hload.trans (commit_ok ..), complete_completedOk rfl, by simp⟩

theorem kst_kld (x z : Idx4) (hstore : exec (.kst y z) s = .next t) :
    ∃ u, exec (.kld x y) t = .next u ∧ CompletedOk t u ∧ u.readK x = s.readK z := by
  have hbytes := readB_of_exec_eq_commit_writeB (exec_kst y z s) hstore
  have hload := exec_kld_of_not_lt y x (by rw [hbytes, i2osp_length]; decide)
  rw [hbytes, os2ip_i2osp_scalar, BitVec.ofNat_toNat, BitVec.setWidth_eq] at hload
  exact ⟨_, hload.trans (commit_ok ..), complete_completedOk rfl, by simp⟩

theorem ptenc_ptdec (x z : Idx4) (hcurve : onCurve (s.readP z) = true) (hstore : exec (.ptenc y z) s = .next t) :
    ∃ u, exec (.ptdec x y) t = .next u ∧ CompletedOk t u ∧ u.readP x = s.readP z := by
  have hbytes := readB_of_exec_eq_commit_writeB (exec_ptenc z y s) hstore
  have hload := exec_ptdec_of_length_eq x y (by
    rw [hbytes, List.length_append, i2osp_length, i2osp_length, Config.feBytes])
  have hhalf : (i2osp (s.readP z).x.val Config.feBytes).length = 56 := i2osp_length ..
  rw [hbytes, List.take_left' hhalf, List.drop_left' hhalf, os2ip_i2osp_fe, os2ip_i2osp_fe, ofNat_val_self,
    ofNat_val_self] at hload
  obtain ⟨u, hexec, hok, -, hread, -⟩ := completes_of_exec_eq_commit_map_writeP hload (pointNew_of_onCurve hcurve)
  exact ⟨u, hexec, hok, hread⟩

end

/-- Settles O45: each load reads the bytes that the store wrote, and they hold the whole value. -/
theorem storeThenLoadGivesTheValueBack : Obligations.StoreThenLoadGivesTheValueBack :=
  ⟨fun _ _ _ hstore => ast_ald hstore, fun x _ z _ _ hstore => fst_fld x z hstore,
    fun x _ z _ _ hstore => kst_kld x z hstore, fun x _ z _ _ hcurve hstore => ptenc_ptdec x z hcurve hstore⟩

end Sys2Proof.Machine
end

section
/-! SUPPORT. What a protocol command makes of the bytes that its counterpart left (46_protocols.md R232 to R239):
opening a sealed text, the parts of a cryptogram and of a signature, and the two commands one after the other. -/

namespace Sys2Proof.Machine

/-- After a class-S command that writes a buffer: what the next command can read. -/
theorem leaves_of_exec_eq_commitS_writeB {i : Instr} {d : Idx8} {y : Bytes} {s : State}
    (h : exec i s = commitS (.ok (s.writeB d y)) s) :
    ∃ t, exec i s = .next t ∧ CompletedOk s t ∧ t.readB d = y ∧ (∀ j, j ≠ d → t.readB j = s.readB j) ∧
      t.params = s.params ∧ t.p = s.p :=
  ⟨_, h.trans (commitS_ok ..), complete_completedOk rfl, by simp, fun j hj => by simp [hj], rfl, rfl⟩

theorem writeCryptogram_of_fits {d : Idx8} {rnd y : Bytes} {size : Nat} {s : State} (hrnd : rnd.length = 64)
    (hsize : size ≤ s.params.bmax) : writeCryptogram d rnd size y s = .ok (s.writeB d y) :=
  (if_neg (not_not_intro hrnd)).trans (if_neg hsize.not_gt)

/-! ### The text (R239) -/

theorem slice_middle (x y z : Bytes) : slice (x ++ (y ++ z)) x.length (x.length + y.length) = y := by
  rw [slice_append_right le_rfl, Nat.sub_self, Nat.add_sub_cancel_left, slice_append_left le_rfl, slice_all]

theorem slice_end (x y z : Bytes) :
    slice (x ++ (y ++ z)) (x.length + y.length) (x.length + y.length + z.length) = z := by
  have hlen := List.length_append (as := x) (bs := y)
  rw [← List.append_assoc, ← hlen, slice_append_right le_rfl, Nat.sub_self, Nat.add_sub_cancel_left, slice_all]

/-- A cryptogram is a first part and the sealed text; its last two slices open to the text. -/
theorem openText_slices {derived : Bytes} (hderived : derived.length = 128) (first m : Bytes) :
    openText derived (slice (first ++ sealText derived m) first.length (first.length + m.length))
      (slice (first ++ sealText derived m) (first.length + m.length) (first.length + m.length + 64)) = .ok m := by
  obtain ⟨keystream, hkeystream⟩ : ∃ keystream, keystream =
    kmacxof256 (derived.take 64) [] (8 * m.length) [0x50, 0x4B, 0x45] := ⟨_, rfl⟩
  have hlong : keystream.length = m.length := by
    rw [hkeystream, kmacxof256_length, Nat.mul_div_cancel_left _ (by decide)]
  have hcipher : (xorBytes keystream m).length = m.length := by
    rw [xorBytes_length, hlong, min_self]
  have hplain : xorBytes keystream (xorBytes keystream m) = m := xorBytes_cancel hlong.ge
  have htag : (kmacxof256 (derived.drop 64) m 512 [0x50, 0x4B, 0x41]).length = 64 := kmacxof256_length ..
  rw [sealText_eq hderived, ← hkeystream]
  have hmiddle := slice_middle first (xorBytes keystream m) (kmacxof256 (derived.drop 64) m 512 [0x50, 0x4B, 0x41])
  have hend := slice_end first (xorBytes keystream m) (kmacxof256 (derived.drop 64) m 512 [0x50, 0x4B, 0x41])
  rw [htag] at hend
  rw [hcipher] at hmiddle hend
  rw [hmiddle, hend, openText_eq hderived (by rw [hcipher, ← hkeystream, hplain]), if_neg (not_not_intro rfl)]

/-! ### The symmetric variant (R234, R235) -/

theorem decryptSym_encryptSym {nonce : Bytes} (hnonce : nonce.length = 64) (m pw : Bytes) :
    decryptSym (encryptSym m pw nonce) pw = .ok m := by
  have hlen := encryptSym_length m pw nonce
  have hopen := openText_slices (deriveSym_length nonce pw) nonce m
  have hfirst : slice (encryptSym m pw nonce) 0 64 = nonce := by
    rw [encryptSym, slice_append_left hnonce.ge, ← hnonce, slice_all]
  rw [hnonce] at hopen hlen
  have hend : 128 + m.length = 64 + m.length + 64 := by omega
  rw [decryptSym_eq (n := m.length) (by omega), hfirst, hend, encryptSym, hopen]

/-- Settles O53: DECSYM reads the cryptogram that ENCSYM wrote and the same passphrase. -/
theorem symmetricRoundTrip : Obligations.SymmetricRoundTrip := by
  intro cg msg pw nonce out s hnonce hfits hpw
  have hwrite := exec_encsym cg msg pw nonce s
  rw [writeCryptogram_of_fits hnonce hfits] at hwrite
  obtain ⟨t, hexec, hok, hcg, hother, -, -⟩ := leaves_of_exec_eq_commitS_writeB hwrite
  have hlen := encryptSym_length (s.readB msg) (s.readB pw) (s.readB nonce)
  have hread := exec_decsym_of_not_lt out cg pw (s := t) (by rw [hcg]; omega)
  rw [hcg, hother pw hpw.symm] at hread
  obtain ⟨u, hexec', hok', -, hout, -⟩ := completes_of_exec_eq_commitS_map_writeB hread
    (decryptSym_encryptSym hnonce (s.readB msg) (s.readB pw))
  exact ⟨t, u, hexec, hok, hexec', hok', hout⟩

/-! ### The public-key variant (R232, R233) -/

/-- The first 112 bytes of a cryptogram give its point back. -/
theorem cryptogramPoint_ptEnc (q : Point) (rest : Bytes) : cryptogramPoint (ptEnc q ++ rest) = q := by
  have hx : (i2osp q.x.val 56).length = 56 := i2osp_length ..
  have hy : (i2osp q.y.val 56).length = 56 := i2osp_length ..
  have hfirst : slice (ptEnc q ++ rest) 0 56 = i2osp q.x.val 56 := by
    rw [ptEnc_eq, List.append_assoc, slice_append_left hx.ge, slice_zero, List.take_of_length_le hx.le]
  have hsecond : slice (ptEnc q ++ rest) 56 112 = i2osp q.y.val 56 := by
    have hmiddle := slice_middle (i2osp q.x.val 56) (i2osp q.y.val 56) rest
    rwa [hx, hy, ← List.append_assoc, ← ptEnc_eq] at hmiddle
  rw [cryptogramPoint, hfirst, hsecond]
  have hdecoded (v : Fe) : Fe.ofNat (os2ip (i2osp v.val 56)) = v :=
    (congrArg Fe.ofNat (os2ip_i2osp_fe v)).trans (ofNat_val_self v)
  rw [hdecoded, hdecoded]

theorem decryptPk_encryptPk {prm : Config.Params} {v : Point} {rnd pw : Bytes} {k : Nat}
    (hk : k = timesCofactor prm.r (os2ip rnd)) (hcurve : onCurve (scalarMultiply prm.g k) = true)
    (hshared : scalarMultiply v k = scalarMultiply (scalarMultiply prm.g k) (privScalar prm.r pw)) (m : Bytes) :
    decryptPk prm (encryptPk prm m v rnd) pw = .ok m := by
  have hlen := encryptPk_length prm m v rnd
  have hopen := openText_slices (derivePk_length (scalarMultiply v k)) (ptEnc (scalarMultiply prm.g k)) m
  rw [ptEnc_length] at hopen
  have hcg : encryptPk prm m v rnd = ptEnc (scalarMultiply prm.g k) ++ sealText (derivePk (scalarMultiply v k)) m := by
    rw [encryptPk_eq, hk]
  have hpoint : cryptogramPoint (encryptPk prm m v rnd) = scalarMultiply prm.g k := by
    rw [hcg, cryptogramPoint_ptEnc]
  have hn : m.length = (encryptPk prm m v rnd).length - 176 := by omega
  have hend : 176 + m.length = 112 + m.length + 64 := by omega
  rw [← hpoint] at hcurve
  rw [decryptPk_of_onCurve hcurve hn, hpoint, ← hshared, hend, hcg, hopen]

/-- Settles O54: DECPK decodes the sender's Z, derives the same keys from the equal shared points and opens the
text. -/
theorem decpkRecoversWhenTheSharedPointsAgree : Obligations.DecpkRecoversWhenTheSharedPointsAgree := by
  intro cg msg rnd pw out v s k hrnd hfits hpw hk hcurve hshared
  have hwrite := exec_encpk cg msg v rnd s
  rw [writeCryptogram_of_fits hrnd hfits] at hwrite
  obtain ⟨t, hexec, hok, hcg, hother, hparams, -⟩ := leaves_of_exec_eq_commitS_writeB hwrite
  have hlen := encryptPk_length s.params (s.readB msg) (s.readP v) (s.readB rnd)
  have hread := exec_decpk_of_not_lt out cg pw (s := t) (by rw [hcg]; omega)
  rw [hcg, hother pw hpw.symm, hparams] at hread
  obtain ⟨u, hexec', hok', -, hout, -⟩ := completes_of_exec_eq_commitS_map_writeB hread
    (decryptPk_encryptPk hk hcurve hshared (s.readB msg))
  exact ⟨t, u, hexec, hok, hexec', hok', hout⟩

/-! ### Signatures (R236, R237) -/

/-- The two parts of a signature are read back as the integers that were written. -/
theorem verifySignature_of_commitment {prm : Config.Params} {m : Bytes} {v u : Point} {h z : Nat}
    (hh : h = challenge u m) (hz : z < 256 ^ 56)
    (hagree : ptAdd (scalarMultiply prm.g z) (scalarMultiply v h) = u) :
    verifySignature prm (i2osp h 64 ++ i2osp z 56) m v = true := by
  have hlt : h < 256 ^ 64 := by
    have hbound := os2ip_lt (kmacxof256 (xBytes u) m 512 customT)
    rw [kmacxof256_length] at hbound
    rw [hh]
    exact hbound
  have hfirst : (i2osp h 64).length = 64 := i2osp_length ..
  rw [verifySignature_iff (by rw [List.length_append, hfirst, i2osp_length]), List.take_left' hfirst,
    List.drop_left' hfirst, os2ip_i2osp, os2ip_i2osp, Nat.mod_eq_of_lt hlt, Nat.mod_eq_of_lt hz, hagree, hh]

/-- Settles O55: VERIFY reads the h and z that SIGN wrote; the challenge of the signer's point is h again. -/
theorem verifyAcceptsWhenTheCommitmentAgrees : Obligations.VerifyAcceptsWhenTheCommitmentAgrees := by
  intro sig msg pw verdict v s scalar k h z hparams hmsg hscalar hk hh hz hagree
  obtain ⟨-, -, hfour, hr, -⟩ := hparams
  have hpos : 0 < s.params.r := Nat.zero_lt_of_lt hfour
  have hresponse : z = response s.params.r k h scalar := by
    rw [← response_eq hpos] at hz
    exact_mod_cast hz
  have hzlt : z < 256 ^ 56 := by
    have hlt : (z : Int) < s.params.r := hz ▸ Int.emod_lt_of_pos _ (by exact_mod_cast hpos)
    have hbytes : (256 : Nat) ^ 56 = 2 ^ 448 := by rw [show 256 = 2 ^ 8 from rfl, ← pow_mul]
    omega
  obtain ⟨t, hexec, hok, hsig, hother, hprm, hp⟩ := leaves_of_exec_eq_commitS_writeB (exec_sign sig msg pw s)
  have hlen := signMessage_length s.params (s.readB msg) (s.readB pw)
  have hread := exec_verify_of_length_eq verdict sig msg v (s := t) (by rw [hsig, hlen])
  have hsigned : signMessage s.params (s.readB msg) (s.readB pw) = i2osp h 64 ++ i2osp z 56 := by
    rw [hresponse, hh, hk, hscalar]
    rfl
  have haccepted := verifySignature_of_commitment (prm := s.params) hh hzlt hagree
  have hpoint : t.readP v = s.readP v := congrArg (·[v]) hp
  rw [hsig, hother msg hmsg.symm, hprm, hpoint, hsigned, if_pos haccepted] at hread
  obtain ⟨u, hexec', hok', -, hverdict, -⟩ := completes_of_exec_eq_commitS_writeN hread
  exact ⟨t, u, hexec, hok, hexec', hok', hverdict⟩

end Sys2Proof.Machine
end

section
/-! SUPPORT. The permutation is a bijection (41_keccak.md R121 to R125): each step mapping can be undone. For theta that
is a fact about the 320 parity bits, a function on the group of columns and bit positions: theta adds two shifts of it,
doing so 64 times adds two shifts by whole columns, and that has an explicit inverse. -/

namespace Sys2Proof.Machine

/-! ### Sums of shifts of a bit function on a group -/

section
variable {G : Type} [AddCommGroup G]

/-- The sum of a bit function and its shifts by p and q. -/
def shiftSum (p q : G) (c : G → Bool) : G → Bool := fun g => (c g ^^ c (g + p)) ^^ c (g + q)

theorem xor_mixed_cancel : ∀ c cp cq cpp cpq cqq : Bool,
    ((((c ^^ cp) ^^ cq) ^^ ((cp ^^ cpp) ^^ cpq)) ^^ ((cq ^^ cpq) ^^ cqq)) = ((c ^^ cpp) ^^ cqq) := by
  decide

/-- Applying the sum twice doubles the shifts: each mixed term comes up twice. -/
theorem shiftSum_shiftSum (p q : G) (c : G → Bool) : shiftSum p q (shiftSum p q c) = shiftSum (2 • p) (2 • q) c := by
  funext g
  have hmixed : g + q + p = g + p + q := add_right_comm g q p
  have hp : g + p + p = g + 2 • p := by rw [two_nsmul, add_assoc]
  have hq : g + q + q = g + 2 • q := by rw [two_nsmul, add_assoc]
  simp only [shiftSum, hmixed, hp, hq]
  exact xor_mixed_cancel ..

theorem shiftSum_injective_of_double {p q : G} (h : Function.Injective (shiftSum (2 • p) (2 • q))) :
    Function.Injective (shiftSum p q) := by
  have htwice : shiftSum p q ∘ shiftSum p q = shiftSum (2 • p) (2 • q) := funext (shiftSum_shiftSum p q)
  rw [← htwice] at h
  exact h.of_comp

theorem shiftSum_injective_of_doubles {p q : G} (n : Nat)
    (h : Function.Injective (shiftSum (2 ^ n • p) (2 ^ n • q))) : Function.Injective (shiftSum p q) := by
  induction n with
  | zero => simpa using h
  | succ n ih =>
    rw [pow_succ', mul_nsmul', mul_nsmul'] at h
    exact ih (shiftSum_injective_of_double h)

theorem xor_columns_cancel : ∀ c₀ c₁ c₂ c₃ c₄ : Bool,
    ((((c₀ ^^ c₁) ^^ c₄) ^^ ((c₂ ^^ c₃) ^^ c₁)) ^^ ((c₃ ^^ c₄) ^^ c₂)) = c₀ := by
  decide

/-- With five columns the sum over a column and its two neighbours is undone by the sum over it and the other two. -/
theorem shiftSum_neighbours_injective {p : G} (hp : 5 • p = 0) : Function.Injective (shiftSum (1 • p) (4 • p)) := by
  refine Function.LeftInverse.injective (g := shiftSum (2 • p) (3 • p)) fun c => funext fun g => ?_
  have hsum (m n : Nat) : g + m • p + n • p = g + (m + n) • p := by rw [add_assoc, add_nsmul]
  have hwrap (n : Nat) : g + (n + 5) • p = g + n • p := by rw [add_nsmul, hp, add_zero]
  have h21 : g + 2 • p + 1 • p = g + 3 • p := hsum 2 1
  have h24 : g + 2 • p + 4 • p = g + 1 • p := (hsum 2 4).trans (hwrap 1)
  have h31 : g + 3 • p + 1 • p = g + 4 • p := hsum 3 1
  have h34 : g + 3 • p + 4 • p = g + 2 • p := (hsum 3 4).trans (hwrap 2)
  simp only [shiftSum, h21, h24, h31, h34]
  exact xor_columns_cancel ..

end

/-- A rotation takes bit z to bit z + r. -/
theorem getLsbD_rotateLeft_add (v : Lane) (r : Nat) {z : Nat} (hz : z < 64) :
    (v.rotateLeft r).getLsbD ((z + r) % 64) = v.getLsbD z := by
  rw [BitVec.getLsbD_rotateLeft]
  by_cases hwraps : (z + r) % 64 < r % 64
  · have hback : 64 - r % 64 + (z + r) % 64 = z := by omega
    rw [decide_eq_true hwraps, cond_true, hback]
  · have hback : (z + r) % 64 - r % 64 = z := by omega
    have hinside : (z + r) % 64 < 64 := Nat.mod_lt _ (by decide)
    rw [decide_eq_false hwraps, cond_false, decide_eq_true hinside, Bool.true_and, hback]

/-! ### theta (R121) -/

/-- The bits of the column parities, as a function on columns and bit positions. -/
def parityBits (a : Lanes) (g : ZMod 5 × ZMod 64) : Bool := (parityOf a g.1.val).getLsbD g.2.val

theorem xor_five_times : ∀ c₀ c₁ c₂ c₃ c₄ d : Bool,
    (((((c₀ ^^ d) ^^ (c₁ ^^ d)) ^^ (c₂ ^^ d)) ^^ (c₃ ^^ d)) ^^ (c₄ ^^ d)) =
      (((((c₀ ^^ c₁) ^^ c₂) ^^ c₃) ^^ c₄) ^^ d) := by
  decide

/-- theta adds its effect five times to each column, which changes the parity by the effect. -/
theorem parityOf_theta (a : Lanes) {x : Nat} (hx : x < 5) : parityOf (theta a) x =
    parityOf a x ^^^ (parityOf a ((x + 4) % 5) ^^^ (parityOf a ((x + 1) % 5)).rotateLeft 1) := by
  have hlane (y : Nat) (hy : y < 5) : lane (theta a) x y = lane a x y ^^^
      (parityOf a ((x + 4) % 5) ^^^ (parityOf a ((x + 1) % 5)).rotateLeft 1) := by
    have hindex : x + 5 * y < 25 := by omega
    have htheta := getElem_theta a ⟨x + 5 * y, hindex⟩
    have hcol : (x + 5 * y) % 5 = x := by omega
    simp only [hcol, Fin.getElem_fin] at htheta
    simpa only [lane, Nat.mod_eq_of_lt hx, Nat.mod_eq_of_lt hy] using htheta
  rw [parityOf, hlane 0 (by decide), hlane 1 (by decide), hlane 2 (by decide), hlane 3 (by decide),
    hlane 4 (by decide)]
  refine BitVec.eq_of_getLsbD_eq fun z _ => ?_
  have hcolumn : parityOf a x = lane a x 0 ^^^ lane a x 1 ^^^ lane a x 2 ^^^ lane a x 3 ^^^ lane a x 4 := rfl
  simp only [hcolumn, BitVec.getLsbD_xor]
  exact xor_five_times ..

theorem parityBits_theta (a : Lanes) : parityBits (theta a) = shiftSum (4, 0) (1, 63) (parityBits a) := by
  funext ⟨x, z⟩
  have hx : x.val < 5 := ZMod.val_lt x
  have hz : z.val < 64 := ZMod.val_lt z
  have hx4 : (x + 4).val = (x.val + 4) % 5 := ZMod.val_add x 4
  have hx1 : (x + 1).val = (x.val + 1) % 5 := ZMod.val_add x 1
  have hz63 : (z + 63).val = (z.val + 63) % 64 := ZMod.val_add z 63
  have hrotated := getLsbD_rotateLeft_add (parityOf a ((x.val + 1) % 5)) 1 (Nat.mod_lt (z.val + 63) (by decide))
  have hback : ((z.val + 63) % 64 + 1) % 64 = z.val := by omega
  rw [hback] at hrotated
  simp only [parityBits, shiftSum, Prod.mk_add_mk, add_zero, hx4, hx1, hz63, parityOf_theta a hx, BitVec.getLsbD_xor,
    hrotated, Bool.xor_assoc]

theorem theta_injective : Function.Injective theta := by
  intro a b h
  have hparity : Function.Injective (shiftSum ((4, 0) : ZMod 5 × ZMod 64) (1, 63)) := by
    refine shiftSum_injective_of_doubles 6 ?_
    have hleft : (2 ^ 6 • (4, 0) : ZMod 5 × ZMod 64) = 1 • (1, 0) := by decide
    have hright : (2 ^ 6 • (1, 63) : ZMod 5 × ZMod 64) = 4 • (1, 0) := by decide
    rw [hleft, hright]
    exact shiftSum_neighbours_injective (by decide)
  have hbits : parityBits a = parityBits b := hparity (by rw [← parityBits_theta, ← parityBits_theta, h])
  have hcolumns (x : Nat) (hx : x < 5) : parityOf a x = parityOf b x := by
    refine BitVec.eq_of_getLsbD_eq fun z hz => ?_
    have hbit := congrFun hbits ((x : ZMod 5), (z : ZMod 64))
    rwa [parityBits, parityBits, ZMod.val_cast_of_lt hx, ZMod.val_cast_of_lt hz] at hbit
  refine Vector.ext fun i hi => ?_
  have hlane := getElem_theta a ⟨i, hi⟩
  rw [h, getElem_theta, hcolumns _ (Nat.mod_lt _ (by decide)), hcolumns _ (Nat.mod_lt _ (by decide)),
    BitVec.xor_left_inj] at hlane
  exact hlane.symm

/-! ### chi (R123) -/

theorem chi_row_inverse : ∀ a₀ a₁ a₂ a₃ a₄ : Bool,
    ((a₀ ^^ (!a₁ && a₂)) ^^ (!(a₁ ^^ (!a₂ && a₃)) && ((a₂ ^^ (!a₃ && a₄)) ^^
      (!(a₃ ^^ (!a₄ && a₀)) && (a₄ ^^ (!a₀ && a₁)))))) = a₀ := by
  decide

/-- The five lanes of a row of chi's result give each lane back. -/
theorem lane_of_chi (a : Lanes) (x y : Nat) : lane (chi a) x y ^^^ (~~~(lane (chi a) (x + 1) y) &&&
    (lane (chi a) (x + 2) y ^^^ (~~~(lane (chi a) (x + 3) y) &&& lane (chi a) (x + 4) y))) = lane a x y := by
  have hwrap : lane a (x + 5) y = lane a x y := lane_congr a (Nat.add_mod_right x 5) rfl
  have hwrap1 : lane a (x + 6) y = lane a (x + 1) y := lane_congr a (Nat.add_mod_right (x + 1) 5) rfl
  refine BitVec.eq_of_getLsbD_eq fun z hz => ?_
  simp only [lane_chi, Nat.add_assoc, Nat.reduceAdd, hwrap, hwrap1, BitVec.getLsbD_xor, BitVec.getLsbD_and,
    BitVec.getLsbD_not, hz, decide_true, Bool.true_and]
  exact chi_row_inverse ..

theorem eq_of_lanes {a b : Lanes} (h : ∀ x < 5, ∀ y < 5, lane a x y = lane b x y) : a = b := by
  refine Vector.ext fun i hi => ?_
  have hlane := h (i % 5) (Nat.mod_lt i (by decide)) (i / 5) (by omega)
  have hindex : i % 5 % 5 + 5 * (i / 5 % 5) = i := by omega
  simpa only [lane, hindex] using hlane

theorem chi_injective : Function.Injective chi := fun a b h =>
  eq_of_lanes fun x _ y _ => by rw [← lane_of_chi a, ← lane_of_chi b, h]

/-! ### rho+pi (R122) -/

theorem rotateLeft_injective (r : Nat) : Function.Injective fun v : Lane => v.rotateLeft r := by
  intro v w h
  refine BitVec.eq_of_getLsbD_eq fun z hz => ?_
  have hbit := congrArg (·.getLsbD ((z + r) % 64)) h
  simpa only [getLsbD_rotateLeft_add _ r hz] using hbit

theorem rhoPi_injective : Function.Injective rhoPi := fun a b h =>
  eq_of_lanes fun x hx y hy => rotateLeft_injective _ (by
    dsimp only
    rw [← lane_rhoPi a hx hy, ← lane_rhoPi b hx hy, h])

/-! ### iota (R124), the rounds and the permutation (R125) -/

theorem iota_injective (ir : Fin 24) : Function.Injective (iota · ir) := by
  intro a b h
  refine Vector.ext fun i hi => ?_
  have ha := getElem_iota a ir ⟨i, hi⟩
  have hb := getElem_iota b ir ⟨i, hi⟩
  dsimp only at h
  rw [h, hb] at ha
  split at ha
  next => exact ((BitVec.xor_left_inj _).1 ha).symm
  next => exact ha.symm

theorem keccakRound_injective (ir : Fin 24) : Function.Injective (keccakRound · ir) :=
  (iota_injective ir).comp (chi_injective.comp (rhoPi_injective.comp theta_injective))

theorem foldl_injective {α β : Type} {f : α → β → α} (h : ∀ x, Function.Injective (f · x)) (l : List β) :
    Function.Injective fun a => l.foldl f a := by
  induction l with
  | nil => exact fun _ _ => id
  | cons x l ih => exact ih.comp (h x)

theorem lanes_finite : Finite Lanes :=
  Finite.of_injective (fun (a : Lanes) (i : Fin 25) => a[i]) fun _ _ h => Vector.ext fun i hi => congrFun h ⟨i, hi⟩

/-- Settles O23: a composition of injections of a finite set of states. -/
theorem keccakPIsBijective : Obligations.KeccakPIsBijective :=
  have := lanes_finite
  Finite.injective_iff_bijective.1 (foldl_injective keccakRound_injective (List.finRange 24))

end Sys2Proof.Machine
end
